-- ==== Sys2Proof/Word.lean ====
section
/-! DEFINITION. The words of BCMSCAN-1: the 64-bit command, response and status words (R48), the bytes of the
bit-plane buffers (R17) and the 14 logical output lines (R34). -/

namespace Sys2Proof

/-- A command word, a response, the status word or a clock value (R48, R41); bit 0 is the least significant (R9). -/
abbrev Word := BitVec 64

/-- A buffer byte or a colour intensity, u8 (R21, R23). -/
abbrev Byte := BitVec 8

/-- A vector over the 14 logical output lines, or a mask over them (R34). -/
abbrev Lines := BitVec 14

/-- A u32: `BASE_NS`, `SWAP_GEN`, a byte offset or a duration operand (R28, R31, R75). -/
abbrev U32 := BitVec 32

end Sys2Proof
end

