-- ==== Sys2Proof/Syntax.lean ====
section
/-! DEFINITION. The fifteen commands of the opcode map (R76), one constructor each. A command names a buffer by
its role, never by its physical number (R44). -/

namespace Sys2Proof

/-- A buffer role, the operand `sel` of formats Q and B (R72, R73): 0 back, 1 front. -/
inductive Role where
  | back
  | front
deriving DecidableEq, Repr

/-- A command with its assembled operands (R75). A coordinate is a mathematical integer, as R75 assembles it; the
integers that a command word can carry are those `Instr.wellFormed` accepts. -/
inductive Instr where
  /-- `SETPIXEL col, row, r, g, b` (R92) -/
  | setpixel (col row : Int) (r g b : Byte)
  /-- `FILL r, g, b` (R95) -/
  | fill (r g b : Byte)
  /-- `DECODE sel, col, row` (R98) -/
  | decode (sel : Role) (col row : Int)
  /-- `READBYTE sel, off` (R100) -/
  | readbyte (sel : Role) (off : U32)
  /-- `REQSWAP` (R103) -/
  | reqswap
  /-- `START` (R141) -/
  | start
  /-- `STOP` (R144) -/
  | stop
  /-- `DISPOSE` (R145) -/
  | dispose
  /-- `SETBASE ns` (R151) -/
  | setbase (ns : U32)
  /-- `GETBASE` (R152) -/
  | getbase
  /-- `MEASURE` (R153) -/
  | measure
  /-- `GETFRAMETIME` (R154) -/
  | getframetime
  /-- `GETWIDTH` (R155) -/
  | getwidth
  /-- `GETHEIGHT` (R156) -/
  | getheight
  /-- `GETSTATUS` (R157) -/
  | getstatus
deriving DecidableEq, Repr

end Sys2Proof
end

