-- ==== Sys2Proof/WellFormed.lean ====
section
/-! DEFINITION. Which commands a command word can carry: the operand ranges of R83 that the operand types do not
already enforce, that is, the s16 range of the coordinates (R70, R72). -/

namespace Sys2Proof

/-- The range of an s16 field: `[-32768, 32767]` (R75, R83). -/
def fitsS16 (z : Int) : Bool := decide (-32768 ≤ z) && decide (z ≤ 32767)

/-- The operands lie in their fields' ranges (R83): the coordinates of `SETPIXEL` and `DECODE` are s16. Every other
operand's type is its field. -/
def Instr.wellFormed : Instr → Bool
  | .setpixel col row _ _ _ => fitsS16 col && fitsS16 row
  | .fill _ _ _ => true
  | .decode _ col row => fitsS16 col && fitsS16 row
  | .readbyte _ _ => true
  | .reqswap => true
  | .start => true
  | .stop => true
  | .dispose => true
  | .setbase _ => true
  | .getbase => true
  | .measure => true
  | .getframetime => true
  | .getwidth => true
  | .getheight => true
  | .getstatus => true

end Sys2Proof
end

