-- ==== Sys2Proof/Decode.lean ====
section
/-! DEFINITION. The command encoding of 30_encoding.md: formats and reserved masks (R69 to R74), the opcode map
(R76), the total decoder (R77 to R80) and the encoder. -/

namespace Sys2Proof

/-- The six formats (R69 to R74). -/
inductive Format where
  | N | P | F | Q | B | D
deriving DecidableEq, Repr

/-- The reserved mask of a format (R69 to R74): the bits that must be 0. -/
def Format.resMask : Format → Word
  | .N => 0x00FFFFFFFFFFFFFF#64
  | .P => 0x0000000000000000#64
  | .F => 0x00FFFFFFFF000000#64
  | .Q => 0x0000000000FFFFFE#64
  | .B => 0x00FFFFFE00000000#64
  | .D => 0x00FFFFFF00000000#64

/-- The fifteen assigned opcodes (R76). -/
inductive Opcode where
  | SETPIXEL | FILL | DECODE | READBYTE
  | REQSWAP
  | START | STOP | DISPOSE
  | SETBASE | GETBASE | MEASURE | GETFRAMETIME | GETWIDTH | GETHEIGHT | GETSTATUS
deriving DecidableEq, Repr

/-- The value of the `OP` field, bits 63:56 (R68, R76). -/
def Opcode.code : Opcode → Byte
  | .SETPIXEL => 0x01#8
  | .FILL => 0x02#8
  | .DECODE => 0x03#8
  | .READBYTE => 0x04#8
  | .REQSWAP => 0x10#8
  | .START => 0x20#8
  | .STOP => 0x21#8
  | .DISPOSE => 0x22#8
  | .SETBASE => 0x30#8
  | .GETBASE => 0x31#8
  | .MEASURE => 0x32#8
  | .GETFRAMETIME => 0x33#8
  | .GETWIDTH => 0x34#8
  | .GETHEIGHT => 0x35#8
  | .GETSTATUS => 0x36#8

/-- The format the opcode alone selects (R76, R81). -/
def Opcode.format : Opcode → Format
  | .SETPIXEL => .P
  | .FILL => .F
  | .DECODE => .Q
  | .READBYTE => .B
  | .SETBASE => .D
  | .REQSWAP => .N
  | .START => .N
  | .STOP => .N
  | .DISPOSE => .N
  | .GETBASE => .N
  | .MEASURE => .N
  | .GETFRAMETIME => .N
  | .GETWIDTH => .N
  | .GETHEIGHT => .N
  | .GETSTATUS => .N

/-- The rows of the opcode map, in the order of R76. -/
def Opcode.all : List Opcode :=
  [.SETPIXEL, .FILL, .DECODE, .READBYTE, .REQSWAP, .START, .STOP, .DISPOSE,
   .SETBASE, .GETBASE, .MEASURE, .GETFRAMETIME, .GETWIDTH, .GETHEIGHT, .GETSTATUS]

/-- The opcode that an `OP` byte names, if the map assigns one (R76, R78). -/
def Opcode.ofCode (b : Byte) : Option Opcode := Opcode.all.find? (fun o => o.code == b)

/-- The `OP` field, bits 63:56 (R68). -/
def opField (w : Word) : Byte := w.extractLsb' 56 8

/-- `COL`, bits 55:40, sign-extended (R70, R72, R75). -/
def colField (w : Word) : Int := (w.extractLsb' 40 16).toInt

/-- `ROW`, bits 39:24, sign-extended (R70, R72, R75). -/
def rowField (w : Word) : Int := (w.extractLsb' 24 16).toInt

/-- `RV`, bits 23:16 (R70, R71). -/
def rvField (w : Word) : Byte := w.extractLsb' 16 8

/-- `GV`, bits 15:8 (R70, R71). -/
def gvField (w : Word) : Byte := w.extractLsb' 8 8

/-- `BV`, bits 7:0 (R70, R71). -/
def bvField (w : Word) : Byte := w.extractLsb' 0 8

/-- `OFF` or `NS`, bits 31:0 (R73, R74). -/
def lowField (w : Word) : U32 := w.extractLsb' 0 32

/-- A role bit: 0 back, 1 front (R72, R73). -/
def roleOfBit (b : Bool) : Role := if b then .front else .back

/-- Operand assembly (R75): no scaling and no shifting. -/
def assemble (op : Opcode) (w : Word) : Instr :=
  match op with
  | .SETPIXEL => .setpixel (colField w) (rowField w) (rvField w) (gvField w) (bvField w)
  | .FILL => .fill (rvField w) (gvField w) (bvField w)
  | .DECODE => .decode (roleOfBit (w.getLsbD 0)) (colField w) (rowField w)
  | .READBYTE => .readbyte (roleOfBit (w.getLsbD 32)) (lowField w)
  | .REQSWAP => .reqswap
  | .START => .start
  | .STOP => .stop
  | .DISPOSE => .dispose
  | .SETBASE => .setbase (lowField w)
  | .GETBASE => .getbase
  | .MEASURE => .measure
  | .GETFRAMETIME => .getframetime
  | .GETWIDTH => .getwidth
  | .GETHEIGHT => .getheight
  | .GETSTATUS => .getstatus

/-- Why a word is not a command: the two decode faults of R77. -/
inductive DecodeError where
  /-- `w[63:56]` is not in the opcode map (R78); the host agent's step records fault code 1. -/
  | illegalOpcode
  /-- a nonzero bit under the format's reserved mask (R79); the host agent's step records fault code 2. -/
  | reservedBits
deriving DecidableEq, Repr

/-- `decode(w)` of R77, total on every 64-bit word: the opcode first, then the reserved bits, then the operands. -/
def decode (w : Word) : Except DecodeError Instr :=
  match Opcode.ofCode (opField w) with
  | none => .error .illegalOpcode
  | some op =>
    if w &&& op.format.resMask = 0#64 then .ok (assemble op w) else .error .reservedBits

/-- The opcode of a command (R76). -/
def Instr.opcode : Instr → Opcode
  | .setpixel _ _ _ _ _ => .SETPIXEL
  | .fill _ _ _ => .FILL
  | .decode _ _ _ => .DECODE
  | .readbyte _ _ => .READBYTE
  | .reqswap => .REQSWAP
  | .start => .START
  | .stop => .STOP
  | .dispose => .DISPOSE
  | .setbase _ => .SETBASE
  | .getbase => .GETBASE
  | .measure => .MEASURE
  | .getframetime => .GETFRAMETIME
  | .getwidth => .GETWIDTH
  | .getheight => .GETHEIGHT
  | .getstatus => .GETSTATUS

/-- An s16 field that holds an integer (R70, R72). -/
def coordField (z : Int) : BitVec 16 := BitVec.ofInt 16 z

/-- The bit of a role (R72, R73). -/
def Role.bit : Role → BitVec 1
  | .back => 0#1
  | .front => 1#1

/-- A field of a 64-bit word, placed with its least significant bit at `lsb` (R9). -/
def placeField {n : Nat} (x : BitVec n) (lsb : Nat) : Word := x.setWidth 64 <<< lsb

/-- Format N (R69). -/
def encodeN (op : Byte) : Word := placeField op 56

/-- Format P (R70). -/
def encodeP (op : Byte) (col row : BitVec 16) (r g b : Byte) : Word :=
  placeField op 56 ||| placeField col 40 ||| placeField row 24 ||| placeField r 16 ||| placeField g 8 ||| placeField b 0

/-- Format F (R71). -/
def encodeF (op r g b : Byte) : Word :=
  placeField op 56 ||| placeField r 16 ||| placeField g 8 ||| placeField b 0

/-- Format Q (R72). -/
def encodeQ (op : Byte) (col row : BitVec 16) (sel : BitVec 1) : Word :=
  placeField op 56 ||| placeField col 40 ||| placeField row 24 ||| placeField sel 0

/-- Format B (R73). -/
def encodeB (op : Byte) (sel : BitVec 1) (off : U32) : Word :=
  placeField op 56 ||| placeField sel 32 ||| placeField off 0

/-- Format D (R74). -/
def encodeD (op : Byte) (ns : U32) : Word := placeField op 56 ||| placeField ns 0

/-- The command word of a command (R68 to R76), right for the well-formed ones. -/
def encode (i : Instr) : Word :=
  match i with
  | .setpixel col row r g b => encodeP i.opcode.code (coordField col) (coordField row) r g b
  | .fill r g b => encodeF i.opcode.code r g b
  | .decode sel col row => encodeQ i.opcode.code (coordField col) (coordField row) sel.bit
  | .readbyte sel off => encodeB i.opcode.code sel.bit off
  | .setbase ns => encodeD i.opcode.code ns
  | .reqswap => encodeN i.opcode.code
  | .start => encodeN i.opcode.code
  | .stop => encodeN i.opcode.code
  | .dispose => encodeN i.opcode.code
  | .getbase => encodeN i.opcode.code
  | .measure => encodeN i.opcode.code
  | .getframetime => encodeN i.opcode.code
  | .getwidth => encodeN i.opcode.code
  | .getheight => encodeN i.opcode.code
  | .getstatus => encodeN i.opcode.code

/-- The 64-bit word whose low `nbits` bits are those of `w` and whose other bits are 0. -/
def wordOfBits (nbits w : Nat) : Word := BitVec.ofNat 64 (w % 2 ^ nbits)

/-- What the decoder reads from an instruction whose bits are `w`, numbered as the opcode table numbers them. A command
is one 64-bit word (R68), so the table's numbering is the word's own. -/
def decodeTableWord (nbits w : Nat) : Option Instr :=
  match decode (wordOfBits nbits w) with
  | .ok i => some i
  | .error _ => none

end Sys2Proof
end

