-- ==== Sys2Proof/Config.lean ====
section
/-! DEFINITION. The parameters of construction (R7, R182) and the free values: what the spec leaves open is an opaque
constant with no body, so no proof can see which value it has. -/

namespace Sys2Proof

/-- One entry of `PINMAP` (R7, R34): the physical line of a logical line, and whether a logical 1 is a low level. -/
structure Pin where
  line : Nat
  activeLow : Bool
deriving DecidableEq, Repr

/-- The arguments of construction (R7, R182). `LINES_OK` is a draw, so it is an argument of the construction itself. -/
structure Params where
  /-- `WIDTH`, columns -/
  width : Nat
  /-- `ROWS`, total rows -/
  rows : Nat
  /-- `NUM_HOSTS`, host agents -/
  numHosts : Nat
  /-- `GAMMA`, 256 entries of u8 (R23) -/
  gamma : Vector Byte 256
  /-- `BASE_RESET_NS` (R31) -/
  baseResetNs : U32
  /-- `OUT_RESET` (R36) -/
  outReset : Lines
  /-- `PINMAP`, one entry per logical output line, in bit order (R34) -/
  pinmap : List Pin
deriving DecidableEq, Repr

/-- The raw curve from which the free `GAMMA` is made (R23 gives no entry but the first and the last). Log 2. -/
opaque Config.gammaRaw : Nat → Byte

/-- The free `BASE_RESET_NS` (R31). Log 3. -/
opaque Config.baseResetNs : U32

/-- The free `OUT_RESET`, before its unused address bits are cleared (R36). Log 4. -/
opaque Config.outResetRaw : Lines

/-- The free `PINMAP`, before the legality test (R7). Log 5. -/
opaque Config.pinmapRaw : List Pin

/-- The free draws of the clock (R41) before monotonicity and before they reach the end of the count. Log 6. -/
opaque Config.clockRaw : Nat → Word

/-- The number of the first free draw that is the largest count (R41). Log 6. -/
opaque Config.clockHorizon : Nat

/-- The free interleaving: which agent takes the n-th step (R57), 0 the engine and k + 1 host k, modulo their number.
Log 7. -/
opaque Config.schedule : Nat → Nat

/-- The free clock: the draw that answers the n-th `Clock()` read, before monotonicity. R41 lets the clock grow without
bound (for every `t` some later read returns at least `t`); over u64 that asks for the largest count in the end, at a
draw that nothing fixes, and every monotone sequence that meets R41 is this one for some raw draws and horizon. Log 6. -/
def Config.clockDraw (n : Nat) : Word := if n < Config.clockHorizon then Config.clockRaw n else 0xFFFFFFFFFFFFFFFF#64

/-- Entries `k` to `255` of the free `GAMMA`, `n + 1` of them, none below `lo`: the raw curve made non-decreasing by
the running maximum, and 255 at the end (R23). -/
def Config.gammaFrom : Nat → Nat → Byte → List Byte
  | 0, _, _ => [255#8]
  | n + 1, k, lo =>
    let v := if (Config.gammaRaw k).toNat < lo.toNat then lo else Config.gammaRaw k
    v :: Config.gammaFrom n (k + 1) v

/-- The free `GAMMA` as a list: 0, then 254 free non-decreasing entries, then 255 (R23). Every legal table is this one
for some raw curve. -/
def Config.gammaList : List Byte := 0#8 :: Config.gammaFrom 254 1 0#8

theorem Config.gammaFrom_length (n k : Nat) (lo : Byte) : (Config.gammaFrom n k lo).length = n + 1 := by
  induction n generalizing k lo with
  | zero => rfl
  | succ n ih => simp [Config.gammaFrom, ih]

/-- The free `GAMMA` (R7, R23). -/
def Config.gamma : Vector Byte 256 :=
  ⟨⟨Config.gammaList⟩, by simp [Config.gammaList, Config.gammaFrom_length]⟩

/-- `PINMAP` is an injective map of the 14 logical lines (R7). -/
def pinmapLegal (m : List Pin) : Bool := decide (m.length = 14) && decide ((m.map Pin.line).Nodup)

/-- The free `PINMAP`: any legal map. -/
def Config.pinmap : List Pin :=
  if pinmapLegal Config.pinmapRaw then Config.pinmapRaw else (List.range 14).map (fun k => ⟨k, false⟩)

/-- `OUT_RESET` of the 32-row panel: any value whose bit of address line `E`, unused there, is 0 (R35, R36). -/
def Config.outReset : Lines := Config.outResetRaw &&& 0x3BFF#14

/-- The instance of the block whose construction is `State.reset`: the 32 x 32 panel of the source's own scenario
(95_test_vectors E1), with two host agents. DESIGN CHOICE, log 1: the spec takes WIDTH, ROWS and NUM_HOSTS as
parameters; `State.construct` takes any. -/
def Config.panel : Params where
  width := 32
  rows := 32
  numHosts := 2
  gamma := Config.gamma
  baseResetNs := Config.baseResetNs
  outReset := Config.outReset
  pinmap := Config.pinmap

end Sys2Proof
end

