-- ==== Sys2Proof/Machine/Tables.lean ====
section
/-! DEFINITION. The constants derived from the geometry (R8), the line masks (R34), the two computed tables (R114,
R115) and the parameter constraints of R7 and R183. -/

namespace Sys2Proof.Machine

/-- `H = ROWS / 2`, the number of half-rows (R8). -/
def halfRows (rows : Nat) : Nat := rows / 2

/-- `S = 8 * WIDTH * H`, the bytes of one bit-plane buffer (R8, R44). -/
def bufBytes (width rows : Nat) : Nat := 8 * width * halfRows rows

/-- `NADDR = ceil(log2 H)`: the least number of address lines that encodes every half-row index (R8), for the at most
32 half-rows the five lines allow (R7). -/
def addrLines (hr : Nat) : Nat :=
  if hr ≤ 1 then 0 else if hr ≤ 2 then 1 else if hr ≤ 4 then 2 else if hr ≤ 8 then 3 else if hr ≤ 16 then 4 else 5

/-- `COLOR_GROUP` (R8). -/
def maskColor : Lines := 0x003F#14

/-- `CLK` (R8, R34). -/
def maskClk : Lines := 0x0800#14

/-- `LAT` (R8, R34). -/
def maskLat : Lines := 0x1000#14

/-- `OE`, asserted = panel output disabled (R8, R34). -/
def maskOe : Lines := 0x2000#14

/-- The five address lines `A` to `E` (R34). -/
def maskAddr : Lines := 0x07C0#14

/-- `ADDR_GROUP = (2^NADDR - 1) << 6` (R8). -/
def addrGroup (hr : Nat) : Lines := BitVec.ofNat 14 (2 ^ addrLines hr - 1) <<< 6

/-- `ROWADDR[h] = h << 6` (R114). -/
def rowAddrEntry (h : Nat) : Lines := BitVec.ofNat 14 h <<< 6

/-- `ROWADDR`, one entry per half-row (R24, R114). -/
def rowAddrTable (hr : Nat) : List Lines := (List.range hr).map rowAddrEntry

/-- `CMT` (R115): entry `q` has the upper group's lines of the pattern `q`, entry `8 + q` the lower group's; bit 0 of
`q` is red, bit 1 green, bit 2 blue (C1, C2). -/
def cmtTable : Vector Lines 16 :=
  #v[0x00#14, 0x01#14, 0x02#14, 0x03#14, 0x04#14, 0x05#14, 0x06#14, 0x07#14,
     0x00#14, 0x08#14, 0x10#14, 0x18#14, 0x20#14, 0x28#14, 0x30#14, 0x38#14]

/-- The geometry check of construction (R183). -/
def geometryOk (width rows : Nat) : Bool :=
  decide (rows % 2 = 0) && decide (2 ≤ rows) && decide (rows ≤ 64) && decide (1 ≤ width) && decide (width ≤ 32767)

/-- `GAMMA[k] <= GAMMA[k+1]` for every `k` (R23). -/
def nonDecreasing : List Byte → Bool
  | [] => true
  | [_] => true
  | a :: b :: rest => decide (a.toNat ≤ b.toNat) && nonDecreasing (b :: rest)

/-- The constraints on `GAMMA` (R7, R23). -/
def gammaLegal (g : Vector Byte 256) : Bool :=
  decide (g[0] = 0#8) && decide (g[255] = 255#8) && nonDecreasing g.toList

/-- The address-line bits that a panel of `hr` half-rows does not use (R35). -/
def unusedAddr (hr : Nat) : Lines := maskAddr &&& ~~~ addrGroup hr

/-- The output lines that the block uses, which construction opens (R184): the colour lines, the first `NADDR` address
lines, `CLK`, `LAT` and `OE`. The other address lines are never acquired (R35). -/
def usedLines (hr : Nat) : Lines := maskColor ||| addrGroup hr ||| maskClk ||| maskLat ||| maskOe

/-- The legal values of the parameters (R7): the geometry bounds, the constraints on `GAMMA`, `OUT_RESET` and
`PINMAP`, and at least one host agent. -/
def paramsLegal (p : Params) : Bool :=
  geometryOk p.width p.rows && gammaLegal p.gamma && decide (p.outReset &&& unusedAddr (halfRows p.rows) = 0#14)
    && pinmapLegal p.pinmap && decide (1 ≤ p.numHosts)

end Sys2Proof.Machine
end

