-- ==== Sys2Proof/Machine/State.lean ====
section
/-! DEFINITION. The state of the block, as plain data (10_state.md R16, R42), with the model's own bookkeeping (the
clock draws, the turns and the trace), construction (R181 to R187) and the reset state. -/

namespace Sys2Proof.Machine

/-- The scan engine's sequencer, its program counter (R38). -/
inductive Phase where
  | idle
  | s1 | s2 | s3 | s4 | s5 | s6 | s7 | s8 | s9 | s10 | s11 | s12 | s13 | s14 | s15
deriving DecidableEq, Repr

/-- Where a host agent is in its command (R40). -/
inductive HPhase where
  | ready
  | swapPost
  | swapWait
  | startWait
  | dispWaitPark
  | dispRelease
  | dispWaitOther
deriving DecidableEq, Repr

/-- One bit-plane buffer: its bytes other than 0, in rising order of their offsets (R17, R44). -/
abbrev Memory := List Host.Cell

/-- A host agent `P_k` (R40) with its side of the command port (R46, R82). -/
structure HostAgent where
  /-- `hphase` (R40) -/
  hphase : HPhase
  /-- `g0`, the `SWAP_GEN` sampled by the post step (R40, R104) -/
  g0 : U32
  /-- the response of the agent's last command; none while a command is in progress (R10, R82). Log 10. -/
  resp : Option Word
  /-- the command words the agent will still issue: its program, outside the block (R40). Log 8. -/
  cmds : List Word
deriving DecidableEq, Repr

/-- One `OutWrite(set, clr)` (R49), with the lines as they were before it. -/
structure Transaction where
  set : Lines
  clr : Lines
  before : Lines
deriving DecidableEq, Repr

/-- Who may take a step (R6): host agent number `k` (from 0), or the scan engine. -/
inductive Agent where
  | host (k : Nat)
  | engine
deriving DecidableEq, Repr

/-- The whole state (R16). -/
structure State where
  /-- `WIDTH` (R14) -/
  width : Nat
  /-- `ROWS` (R14) -/
  rows : Nat
  /-- `PINMAP` (R34), outside the block -/
  pinmap : List Pin
  /-- `GAMMA` (R23), read-only -/
  gamma : Vector Byte 256
  /-- `ROWADDR` (R24, R114), read-only -/
  rowaddr : List Lines
  /-- `CMT` (R24, R115), read-only -/
  cmt : Vector Lines 16
  /-- `BUF[0]` (R17) -/
  buf0 : Memory
  /-- `BUF[1]` (R17) -/
  buf1 : Memory
  /-- `FRONT` (R18): false names `BUF[0]`, true `BUF[1]` -/
  front : Bool
  /-- `RUNNING` (R25) -/
  running : Bool
  /-- `PARKED` (R25) -/
  parked : Bool
  /-- `SWAP_PENDING` (R27) -/
  swapPending : Bool
  /-- `SWAP_GEN` (R28) -/
  swapGen : U32
  /-- `DISPOSING` (R29) -/
  disposing : Bool
  /-- `DISPOSED` (R29) -/
  disposed : Bool
  /-- `FAULT` (R30): the first recorded fault code, 0 for none -/
  fault : Byte
  /-- `BASE_NS` (R31) -/
  baseNs : U32
  /-- `MEASURE_ARMED` (R32) -/
  measureArmed : Bool
  /-- `FRAME_TIME_NS` (R32) -/
  frameTimeNs : Word
  /-- `FRAME_TIME_VALID` (R32) -/
  frameTimeValid : Bool
  /-- `OUT` (R34) -/
  out : Lines
  /-- `LINES_HELD` (R37): whether the block holds the lines that it uses (R35, R184) -/
  linesHeld : Bool
  /-- `phase` (R38) -/
  phase : Phase
  /-- `h`, the half-row cursor (R38) -/
  curH : BitVec 5
  /-- `i`, the bit-plane cursor (R38) -/
  curI : BitVec 3
  /-- `c`, the column cursor (R38) -/
  curC : BitVec 15
  /-- `B`, the base duration latched for the half-row cycle (R38) -/
  latB : U32
  /-- `t0`, the start time of the current hold (R38) -/
  t0 : Word
  /-- `tm0`, the start time of a measured cycle (R38) -/
  tm0 : Word
  /-- `MEAS_ACTIVE` (R38) -/
  measActive : Bool
  /-- the host agents `P_1 .. P_NUM_HOSTS` (R40) -/
  hosts : List HostAgent
  /-- the value of the latest `Clock()` read (R41). The model's own, log 6. -/
  clockLast : Word
  /-- the next clock draws, as the environment gives them (R41). The model's own, log 6. -/
  clockDraws : List Word
  /-- how many clock reads were made. The model's own, log 6. -/
  clockReads : Nat
  /-- the agents that take the next steps (R57). The model's own, log 7. -/
  turns : List Agent
  /-- how many steps were taken. The model's own, log 7. -/
  turnsTaken : Nat
  /-- the host agent whose command `exec` performs. The model's own, log 8. -/
  issuer : Nat
  /-- the transactions so far, newest first (R49). The model's own, log 11. -/
  trace : List Transaction
deriving DecidableEq, Repr

/-- Why the model stops with a fault. The spec has no such stop (R160): each is an access at an index the spec says
does not exist, which no state that construction leads to can make. Every one is safe. Log 12. -/
inductive Fault where
  /-- micro-step S4 with cursors outside the geometry: its offset is not below `S`, where nothing is (R53). Safe. -/
  | bufferOutside
  /-- micro-step S2 or S3 with `h` not below `H`: `ROWADDR` has no such entry (R45). Safe. -/
  | rowAddrOutside
deriving DecidableEq, Repr

/-- Why the model gives a command no meaning. No command of the opcode map is refused. -/
inductive Refusal where
  /-- raised by `exec` for an instruction that has no meaning yet; safe. No arm uses it. -/
  | notModelled (mnemonic : String)
deriving DecidableEq, Repr

/-- A host agent after construction (R42): `READY`, `g0 = 0`, with nothing issued yet. -/
def HostAgent.fresh : HostAgent where
  hphase := .ready
  g0 := 0#32
  resp := none
  cmds := []

/-- The state after a successful construction with the parameters `p` (R42, R186). -/
def State.fresh (p : Params) : State where
  width := p.width
  rows := p.rows
  pinmap := p.pinmap
  gamma := p.gamma
  rowaddr := rowAddrTable (halfRows p.rows)
  cmt := cmtTable
  buf0 := []
  buf1 := []
  front := false
  running := false
  parked := true
  swapPending := false
  swapGen := 0#32
  disposing := false
  disposed := false
  fault := 0#8
  baseNs := p.baseResetNs
  measureArmed := false
  frameTimeNs := 0#64
  frameTimeValid := false
  out := p.outReset
  linesHeld := true
  phase := .idle
  curH := 0#5
  curI := 0#3
  curC := 0#15
  latB := 0#32
  t0 := 0#64
  tm0 := 0#64
  measActive := false
  hosts := List.replicate p.numHosts HostAgent.fresh
  clockLast := 0#64
  clockDraws := []
  clockReads := 0
  turns := []
  turnsTaken := 0
  issuer := 0
  trace := []

/-- How construction fails (R161, R187): no block exists then. -/
inductive ConstructError where
  /-- the geometry check (R183) -/
  | badGeometry
  /-- `LINES_OK` is false: an output line could not be acquired or configured (R184) -/
  | linesNotAcquired
deriving DecidableEq, Repr

/-- Construction, one atomic act (R182 to R187): the geometry check, then the acquisition of `usedLines` (R184), whose
outcome is the draw `LINES_OK`; a failure leaves no block. Nothing else is checked: log 18. -/
def State.construct (p : Params) (linesOk : Bool) : Except ConstructError State :=
  if geometryOk p.width p.rows then
    if linesOk then .ok (State.fresh p) else .error .linesNotAcquired
  else .error .badGeometry

/-- The machine right after reset: construction is the only reset (R181). -/
def State.reset : State := State.fresh Config.panel

end Sys2Proof.Machine
end

