-- ==== Sys2Proof/Machine/Ops.lean ====
section
/-! DEFINITION. The named operations over the state: the buffers (R44, R50), the output port (R49), the clock (R41),
a host agent's record (R40), the end of a command (R10, R82), fault recording (R165), and the turns (R57). -/

namespace Sys2Proof.Machine

/-- What one step of an agent answers. -/
abbrev Result := Host.Outcome State Fault Refusal

/-! ### Buffers -/

/-- What a buffer byte that the list does not hold reads as: 0, as construction leaves every byte (R17). -/
def Memory.unlisted : Byte := 0#8

/-- The byte at an offset of a buffer (R50). -/
def Memory.read : Memory → Nat → Byte
  | [], _ => Memory.unlisted
  | (b, v) :: rest, a => if a = b then v else Memory.read rest a

/-- The buffer with one byte written (R50), in canonical form again. -/
def Memory.write : Memory → Nat → Byte → Memory
  | [], a, v => if v = Memory.unlisted then [] else [(a, v)]
  | (b, x) :: rest, a, v =>
    if a < b then
      if v = Memory.unlisted then (b, x) :: rest else (a, v) :: (b, x) :: rest
    else if a = b then
      if v = Memory.unlisted then rest else (a, v) :: rest
    else (b, x) :: Memory.write rest a v

/-- The canonical form from an offset on: offsets strictly rising, none below `lo`, and no listed byte 0. -/
def Memory.wfFrom (lo : Nat) : Memory → Bool
  | [] => true
  | (a, v) :: rest => decide (lo ≤ a) && decide (v ≠ Memory.unlisted) && Memory.wfFrom (a + 1) rest

/-- The canonical form: offsets strictly rising and no listed byte 0, so that equal buffers are equal lists. -/
def Memory.wf (m : Memory) : Bool := Memory.wfFrom 0 m

/-- Every listed byte lies in `[0, size)` (R53). -/
def Memory.within (size : Nat) (m : Memory) : Bool := m.all (fun cell => decide (cell.1 < size))

/-- `H` of the block (R8). -/
def State.hr (s : State) : Nat := halfRows s.rows

/-- `S` of the block (R8). -/
def State.size (s : State) : Nat := bufBytes s.width s.rows

/-- The physical buffer `BUF[p]` (R44). -/
def State.buf (s : State) (p : Bool) : Memory := if p then s.buf1 else s.buf0

/-- The state with the contents of the physical buffer `BUF[p]` replaced. -/
def State.setBuf (s : State) (p : Bool) (m : Memory) : State :=
  { s with buf0 := if p then s.buf0 else m, buf1 := if p then m else s.buf1 }

/-- `MemRead((p, off), 1)` (R10). -/
def State.readByte (s : State) (p : Bool) (off : Nat) : Byte := (s.buf p).read off

/-! ### The output port -/

/-- `(OUT & ~clr) | set` (R49). -/
def applyLines (out set clr : Lines) : Lines := (out &&& ~~~ clr) ||| set

/-- The lines after a transaction (R49). -/
def Transaction.after (t : Transaction) : Lines := applyLines t.before t.set t.clr

/-- `OutWrite(set, clr)`: one atomic transaction on the output lines, in the trace even when it changes no bit (R49). -/
def State.outWrite (s : State) (set clr : Lines) : State :=
  { s with out := applyLines s.out set clr, trace := ⟨set, clr, s.out⟩ :: s.trace }

/-! ### The clock -/

/-- The next draw: the environment's, or the free one (R41, R174). -/
def State.nextDraw (s : State) : Word :=
  match s.clockDraws with
  | d :: _ => d
  | [] => Config.clockDraw s.clockReads

/-- The value the next `Clock()` read returns: the draw, but never below an earlier read (R41). -/
def State.clockValue (s : State) : Word :=
  if s.nextDraw.toNat < s.clockLast.toNat then s.clockLast else s.nextDraw

/-- The state after a `Clock()` read (R41). -/
def State.clockTick (s : State) : State :=
  { s with clockLast := s.clockValue, clockDraws := s.clockDraws.tail, clockReads := s.clockReads + 1 }

/-! ### Host agents -/

/-- The state with host agent `k`'s record changed. -/
def State.modifyHost (s : State) (k : Nat) (f : HostAgent → HostAgent) : State :=
  { s with hosts := s.hosts.modify k f }

/-- `hphase <- p` of host agent `k`: the command goes on in a later step (R40). -/
def State.setPhase (s : State) (k : Nat) (p : HPhase) : State :=
  s.modifyHost k (fun a => { a with hphase := p })

/-- `resp <- v; hphase <- READY` of host agent `k`: its command is complete (R10, R82). -/
def State.complete (s : State) (k : Nat) (v : Word) : State :=
  s.modifyHost k (fun a => { a with hphase := .ready, resp := some v })

/-- The response of host agent `k`'s last command. -/
def State.respOf (s : State) (k : Nat) : Option Word := (s.hosts[k]?).bind HostAgent.resp

/-- Where host agent `k` is in its command. -/
def State.phaseOf (s : State) (k : Nat) : Option HPhase := (s.hosts[k]?).map HostAgent.hphase

/-! ### Recorded faults -/

/-- The fault codes of R164. Each is raised by the step that R166 names, and the machine goes on. -/
inductive FaultCode where
  /-- `w[63:56]` not in the opcode map -/
  | illegalOpcode
  /-- a nonzero bit under the format's reserved mask -/
  | reservedBits
  /-- a command other than `DISPOSE` and `GETSTATUS` after teardown began -/
  | useAfterDispose
  /-- `DECODE` out of bounds, `READBYTE` with `off >= S` -/
  | badOperand
deriving DecidableEq, Repr

/-- The code (R164). -/
def FaultCode.code : FaultCode → Byte
  | .illegalOpcode => 1#8
  | .reservedBits => 2#8
  | .useAfterDispose => 3#8
  | .badOperand => 4#8

/-- `FAULT` after a fault: the first one is kept (R165). -/
def recordFault (old : Byte) (c : FaultCode) : Byte := if old = 0#8 then c.code else old

/-- `raise Fault(code)` by host agent `k` (R165): the one place where the block takes a fault. `FAULT` keeps the first
code, the response is 0 and the command is over; nothing else changes. There is no return from it (R169). -/
def State.raiseFault (s : State) (k : Nat) (c : FaultCode) : State :=
  { s with fault := recordFault s.fault c }.complete k 0#64

/-! ### Turns -/

/-- The agent a schedule number names, among `n` host agents and the engine (R6). -/
def agentOfNat (n m : Nat) : Agent :=
  if m % (n + 1) = 0 then .engine else .host (m % (n + 1) - 1)

/-- Which agent takes the next step: the environment's choice, or the free one (R57, R171). -/
def State.nextAgent (s : State) : Agent :=
  match s.turns with
  | a :: _ => a
  | [] => agentOfNat s.hosts.length (Config.schedule s.turnsTaken)

/-- The state with the turn used up. -/
def State.endTurn (s : State) : State :=
  { s with turns := s.turns.tail, turnsTaken := s.turnsTaken + 1 }

/-- Host agent `k` puts its next command word on the port: the word leaves its program, its last response is gone, and
the command `exec` performs is `k`'s. -/
def State.issue (s : State) (k : Nat) : State :=
  { s with issuer := k }.modifyHost k (fun a => { a with resp := none, cmds := a.cmds.tail })

end Sys2Proof.Machine
end

