-- ==== Sys2Proof/Machine/Flags.lean ====
section
/-! DEFINITION. Flags: the scheduler states that RUNNING and PARKED encode (R26), the lifecycle check (R166), the
swap exchange (R108) and the status word (R33). -/

namespace Sys2Proof.Machine

/-- Stopped: `RUNNING = 0`, `PARKED = 1` (R26). -/
def State.isStopped (s : State) : Bool := !s.running && s.parked

/-- Running: `RUNNING = 1`, `PARKED = 0` (R26). -/
def State.isRunning (s : State) : Bool := s.running && !s.parked

/-- Stopping: both 0 (R26). -/
def State.isStopping (s : State) : Bool := !s.running && !s.parked

/-- Teardown has begun: the condition of the lifecycle check (R166(3)). -/
def State.tornDown (s : State) : Bool := s.disposing || s.disposed

/-- The lifecycle check of every command but `DISPOSE` and `GETSTATUS` (R166(3)), before the rest of its meaning. -/
def State.unlessTornDown (s : State) (k : Nat) (next : State) : Result :=
  .next (if s.tornDown then s.raiseFault k .useAfterDispose else next)

/-- `SwapExchange()` (R108): the roles are exchanged, no byte is copied. -/
def State.swapExchange (s : State) : State :=
  { s with front := !s.front, swapPending := false, swapGen := s.swapGen + 1#32 }

/-- The status word (R33), field by field; bits 31:24 read as 0. -/
def State.statusWord (s : State) : Word :=
  placeField (BitVec.ofBool s.running) 0 ||| placeField (BitVec.ofBool s.parked) 1
    ||| placeField (BitVec.ofBool s.swapPending) 2 ||| placeField (BitVec.ofBool s.disposing) 3
    ||| placeField (BitVec.ofBool s.disposed) 4 ||| placeField (BitVec.ofBool s.measureArmed) 5
    ||| placeField (BitVec.ofBool s.frameTimeValid) 6 ||| placeField (BitVec.ofBool s.front) 7
    ||| placeField s.fault 8 ||| placeField s.curH 16 ||| placeField s.curI 21 ||| placeField s.swapGen 32

end Sys2Proof.Machine
end

