-- ==== Sys2Proof/Machine/Lifecycle.lean ====
section
/-! DEFINITION. Lifecycle control (43_lifecycle.md): START, STOP, DISPOSE and the later steps of the agents that issued
them. -/

namespace Sys2Proof.Machine

/-- Step 1 of `START` by host agent `k` (R141): a no-op while Running (R142), a wait while Stopping (R143), and from
Stopped the compare-and-swap that starts the engine at S1 with all cursors 0. -/
def startStep (k : Nat) (s : State) : State :=
  if s.running then s.complete k 0#64
  else if s.parked then
    { s with running := true, parked := false, curH := 0#5, curI := 0#3, curC := 0#15, phase := .s1 }.complete k 0#64
  else s.setPhase k .startWait

/-- `START` (R141). -/
def execStart (s : State) : Host.Outcome State Fault Refusal :=
  s.unlessTornDown s.issuer (startStep s.issuer s)

/-- `START_WAIT` (R143): held while Stopping, unless teardown has begun, which is a fault; then step 1 again. -/
def startWaitStep (k : Nat) (s : State) : Result :=
  .next <|
    if s.disposing then s.raiseFault k .useAfterDispose
    else if s.isStopping then s
    else startStep k (s.setPhase k .ready)

/-- `STOP` (R144): Running becomes Stopping; otherwise nothing (R163). It does not wait. -/
def execStop (s : State) : Host.Outcome State Fault Refusal :=
  s.unlessTornDown s.issuer ({ s with running := false }.complete s.issuer 0#64)

/-- `DISPOSE`, step 1 (R145, R148): a no-op once disposed, a wait while another agent disposes, else teardown begins.
It makes no lifecycle check (R166(3)). -/
def execDispose (s : State) : Host.Outcome State Fault Refusal :=
  .next <|
    if s.disposed then s.complete s.issuer 0#64
    else if s.disposing then s.setPhase s.issuer .dispWaitOther
    else { s with disposing := true, running := false }.setPhase s.issuer .dispWaitPark

/-- `DISP_WAIT_PARK` (R146): held until the engine has parked. -/
def dispWaitParkStep (k : Nat) (s : State) : Result :=
  .next (if s.parked then s.setPhase k .dispRelease else s)

/-- `DISP_RELEASE` (R147): the output lines are released and the block is disposed, in one step. -/
def dispReleaseStep (k : Nat) (s : State) : Result :=
  .next ({ s with linesHeld := false, disposed := true }.complete k 0#64)

/-- `DISP_WAIT_OTHER` (R148): held until the other agent's `DISPOSE` has released the lines. -/
def dispWaitOtherStep (k : Nat) (s : State) : Result :=
  .next (if s.disposed then s.complete k 0#64 else s)

end Sys2Proof.Machine
end

