-- ==== Sys2Proof/Machine/Operands.lean ====
section
/-! DEFINITION. Operand forms: buffer roles (R19, R44), coordinates and offsets (R51, R88), gamma (R89), the lanes
of a buffer byte (R90, R97), and the colour mask of a byte (R116). -/

namespace Sys2Proof.Machine

/-- `BACK = 1 - FRONT` (R18). -/
def State.back (s : State) : Bool := !s.front

/-- The physical buffer that has a role, at the step that performs the access (R44, R87). -/
def State.roleBuf (s : State) (sel : Role) : Bool :=
  match sel with
  | .back => s.back
  | .front => s.front

/-- `InBounds(col, row)`, on mathematical integers (R88). -/
def State.inBounds (s : State) (col row : Int) : Bool :=
  decide (0 ≤ col) && decide (col < s.width) && decide (0 ≤ row) && decide (row < s.rows)

/-- `off(c, h, i) = 8*c + 8*h*WIDTH + i` (R51). -/
def offset (width c h i : Nat) : Nat := 8 * c + 8 * h * width + i

/-- The column of an offset, the inverse map of R51. -/
def offsetCol (width off : Nat) : Nat := off / 8 % width

/-- The half-row of an offset, the inverse map of R51. -/
def offsetRow (width off : Nat) : Nat := off / (8 * width)

/-- The bit-plane of an offset, the inverse map of R51. -/
def offsetPlane (off : Nat) : Nat := off % 8

/-- The half-row of an in-bounds row: `row mod H` (R52). -/
def State.halfOf (s : State) (row : Int) : Nat := row.toNat % s.hr

/-- Whether a row is in the upper row group: `row < H` (R52). -/
def State.isUpper (s : State) (row : Int) : Bool := decide (row < s.hr)

/-- The offset of plane 0 of an in-bounds pixel (R52). -/
def State.pixelBase (s : State) (col row : Int) : Nat := offset s.width col.toNat (s.halfOf row) 0

/-- `GAMMA[k]` (R89). -/
def State.gammaOf (s : State) (k : Byte) : Byte := s.gamma[k.toNat]'k.isLt

/-- `pat(i, gr, gg, gb)` (R90): bit `i` of each channel, red lowest. -/
def pat (i : Nat) (gr gg gb : Byte) : BitVec 3 :=
  (BitVec.ofBool (gr.getLsbD i)).setWidth 3 ||| ((BitVec.ofBool (gg.getLsbD i)).setWidth 3 <<< 1)
    ||| ((BitVec.ofBool (gb.getLsbD i)).setWidth 3 <<< 2)

/-- `put(byte, upper, q)` (R90): exactly the three lanes of the chosen group are set or cleared. -/
def put (byte : Byte) (upper : Bool) (q : BitVec 3) : Byte :=
  if upper then (byte &&& 0xF8#8) ||| q.setWidth 8 else (byte &&& 0xC7#8) ||| (q.setWidth 8 <<< 3)

/-- The byte `FILL` writes (R95): both groups' lanes, bits 7:6 kept. -/
def fillByte (byte : Byte) (q : BitVec 3) : Byte := (byte &&& 0xC0#8) ||| (q.setWidth 8 <<< 3) ||| q.setWidth 8

/-- The eight read-modify-writes of `SETPIXEL` (R92) on the back buffer's contents: plane `i` of the pixel at `base`. -/
def writePixel (m : Memory) (base : Nat) (upper : Bool) (gr gg gb : Byte) : Memory :=
  (List.range 8).foldr
    (fun i m => Memory.write m (base + i) (put (Memory.read m (base + i)) upper (pat i gr gg gb))) m

/-- The `size` read-modify-writes of `FILL` (R95) on the back buffer's contents. Each touches its own byte, so their
order cannot be seen (R94). -/
def fillMemory (m : Memory) (size : Nat) (gr gg gb : Byte) : Memory :=
  (List.range size).foldr
    (fun off m => Memory.write m off (fillByte (Memory.read m off) (pat (off % 8) gr gg gb))) m

/-- One channel of `Dec` (R97): the bits of one lane in the eight planes from `base` on. -/
def decodeLane (m : Memory) (base lane : Nat) : Byte :=
  (List.range 8).foldl
    (fun acc i => acc ||| (((Memory.read m (base + i) >>> lane) &&& 1#8) <<< i)) 0#8

/-- A decoded pixel: `(r, g, b)` (R97). -/
structure Rgb where
  r : Byte
  g : Byte
  b : Byte
deriving DecidableEq, Repr

/-- `Dec(p, col, row)` on a buffer's contents (R97), with `base` the pixel's plane 0 and `upper` its row group. -/
def decodePixel (m : Memory) (base : Nat) (upper : Bool) : Rgb :=
  let sh := if upper then 0 else 3
  { r := decodeLane m base sh, g := decodeLane m base (sh + 1), b := decodeLane m base (sh + 2) }

/-- `Dec(p, col, row)` (R97). -/
def State.dec (s : State) (p : Bool) (col row : Int) : Rgb :=
  decodePixel (s.buf p) (s.pixelBase col row) (s.isUpper row)

/-- `zext_64(r << 16 | g << 8 | b)` (R82, R98). -/
def Rgb.word (x : Rgb) : Word := placeField x.r 16 ||| placeField x.g 8 ||| placeField x.b 0

/-- `colorMask(v) = CMT[v[2:0]] | CMT[8 + v[5:3]]` (R116, C1). -/
def State.colorMask (s : State) (v : Byte) : Lines :=
  (s.cmt[(v.extractLsb' 0 3).toNat]'(by have := (v.extractLsb' 0 3).isLt; omega))
    ||| (s.cmt[8 + (v.extractLsb' 3 3).toNat]'(by have := (v.extractLsb' 3 3).isLt; omega))

end Sys2Proof.Machine
end

