-- ==== Sys2Proof/Machine/Pixel.lean ====
section
/-! DEFINITION. The pixel encoder family (40_pixel_encoder.md): SETPIXEL, FILL, DECODE, READBYTE. Each is one atomic
step of the issuer (R54, R87), after the decode checks of R77. -/

namespace Sys2Proof.Machine

/-- `SETPIXEL col, row, r, g, b` (R92): clipped out of bounds (R91), else the pixel's three lanes in its eight bytes of
the back buffer, gamma applied (R89). -/
def execSetpixel (col row : Int) (r g b : Byte) (s : State) : Host.Outcome State Fault Refusal :=
  s.unlessTornDown s.issuer <|
    if s.inBounds col row then
      (s.setBuf s.back
        (writePixel (s.buf s.back) (s.pixelBase col row) (s.isUpper row)
          (s.gammaOf r) (s.gammaOf g) (s.gammaOf b))).complete s.issuer 0#64
    else s.complete s.issuer 0#64

/-- `FILL r, g, b` (R95): every byte of the back buffer, as one atomic step (R54). -/
def execFill (r g b : Byte) (s : State) : Host.Outcome State Fault Refusal :=
  s.unlessTornDown s.issuer <|
    (s.setBuf s.back
      (fillMemory (s.buf s.back) s.size (s.gammaOf r) (s.gammaOf g) (s.gammaOf b))).complete s.issuer 0#64

/-- `DECODE sel, col, row` (R98): the pixel's stored triple; `BAD_OPERAND` out of bounds (R162). -/
def execDecode (sel : Role) (col row : Int) (s : State) : Host.Outcome State Fault Refusal :=
  s.unlessTornDown s.issuer <|
    if s.inBounds col row then s.complete s.issuer (s.dec (s.roleBuf sel) col row).word
    else s.raiseFault s.issuer .badOperand

/-- `READBYTE sel, off` (R100): one raw buffer byte; `BAD_OPERAND` when `off >= S`. -/
def execReadbyte (sel : Role) (off : U32) (s : State) : Host.Outcome State Fault Refusal :=
  s.unlessTornDown s.issuer <|
    if off.toNat < s.size then s.complete s.issuer ((s.readByte (s.roleBuf sel) off.toNat).setWidth 64)
    else s.raiseFault s.issuer .badOperand

end Sys2Proof.Machine
end

