-- ==== Sys2Proof/Machine/Query.lean ====
section
/-! DEFINITION. Configuration and query commands (44_config_query.md), each one atomic step. -/

namespace Sys2Proof.Machine

/-- `SETBASE ns` (R151): every u32 is accepted. -/
def execSetbase (ns : U32) (s : State) : Host.Outcome State Fault Refusal :=
  s.unlessTornDown s.issuer ({ s with baseNs := ns }.complete s.issuer 0#64)

/-- `GETBASE` (R152): `BASE_NS`, not the engine's latched `B`. -/
def execGetbase (s : State) : Host.Outcome State Fault Refusal :=
  s.unlessTornDown s.issuer (s.complete s.issuer (s.baseNs.setWidth 64))

/-- `MEASURE` (R153). -/
def execMeasure (s : State) : Host.Outcome State Fault Refusal :=
  s.unlessTornDown s.issuer ({ s with measureArmed := true }.complete s.issuer 0#64)

/-- `GETFRAMETIME` (R154). -/
def execGetframetime (s : State) : Host.Outcome State Fault Refusal :=
  s.unlessTornDown s.issuer (s.complete s.issuer s.frameTimeNs)

/-- `GETWIDTH` (R155). -/
def execGetwidth (s : State) : Host.Outcome State Fault Refusal :=
  s.unlessTornDown s.issuer (s.complete s.issuer (BitVec.ofNat 64 s.width))

/-- `GETHEIGHT` (R156): `ROWS`, not `H`. -/
def execGetheight (s : State) : Host.Outcome State Fault Refusal :=
  s.unlessTornDown s.issuer (s.complete s.issuer (BitVec.ofNat 64 s.rows))

/-- `GETSTATUS` (R157): the status word of R33; allowed after teardown (R166(3)). -/
def execGetstatus (s : State) : Host.Outcome State Fault Refusal :=
  .next (s.complete s.issuer s.statusWord)

end Sys2Proof.Machine
end

