-- ==== Sys2Proof/Machine/Swap.lean ====
section
/-! DEFINITION. The swap coordinator (41_swap.md): REQSWAP and the later steps of the agent that issued it. The
exchange itself is `State.swapExchange`, performed by the engine's S13 (R108, R129). -/

namespace Sys2Proof.Machine

/-- `REQSWAP`, step 1 (R103): the issuer goes to `SWAP_POST`; it answers later. -/
def execReqswap (s : State) : Host.Outcome State Fault Refusal :=
  s.unlessTornDown s.issuer (s.setPhase s.issuer .swapPost)

/-- `REQSWAP`, step 2, the post (R104): an atomic test-and-set of `SWAP_PENDING` that samples `SWAP_GEN`; it holds while
a swap is pending (R105). -/
def swapPostStep (k : Nat) (s : State) : Result :=
  .next <|
    if s.swapPending then s
    else { s with swapPending := true }.modifyHost k (fun a => { a with g0 := s.swapGen, hphase := .swapWait })

/-- `REQSWAP`, step 3, the wait (R107): the command is complete once `SWAP_GEN` differs from the sampled `g0`. -/
def swapWaitStep (k : Nat) (g0 : U32) (s : State) : Result :=
  .next (if s.swapGen = g0 then s else s.complete k 0#64)

end Sys2Proof.Machine
end

