-- ==== Sys2Proof/Machine/Dispatch.lean ====
section
/-! DEFINITION. The meaning of every command, one arm per constructor. -/

namespace Sys2Proof.Machine

/-- The first step of a command by the host agent `s.issuer`, after the decode checks of R77. -/
def exec (i : Instr) (s : State) : Host.Outcome State Fault Refusal :=
  match i with
  | .setpixel col row r g b => Sys2Proof.Machine.execSetpixel col row r g b s
  | .fill r g b => Sys2Proof.Machine.execFill r g b s
  | .decode sel col row => Sys2Proof.Machine.execDecode sel col row s
  | .readbyte sel off => Sys2Proof.Machine.execReadbyte sel off s
  | .reqswap => Sys2Proof.Machine.execReqswap s
  | .start => Sys2Proof.Machine.execStart s
  | .stop => Sys2Proof.Machine.execStop s
  | .dispose => Sys2Proof.Machine.execDispose s
  | .setbase ns => Sys2Proof.Machine.execSetbase ns s
  | .getbase => Sys2Proof.Machine.execGetbase s
  | .measure => Sys2Proof.Machine.execMeasure s
  | .getframetime => Sys2Proof.Machine.execGetframetime s
  | .getwidth => Sys2Proof.Machine.execGetwidth s
  | .getheight => Sys2Proof.Machine.execGetheight s
  | .getstatus => Sys2Proof.Machine.execGetstatus s

end Sys2Proof.Machine
end

