-- ==== Sys2Proof/Machine/Scan.lean ====
section
/-! DEFINITION. The scan engine (42_scan_engine.md): one definition per micro-step S1 to S15 (R117 to R131), each one
atomic step with at most one transaction and one clock read (R55), and the engine's turn (R112). -/

namespace Sys2Proof.Machine

/-- The measurement start of S1 (R117): when armed, `MEAS_ACTIVE <- 1`, `MEASURE_ARMED <- 0`, `tm0 <- Clock()`. -/
def State.measureStart (s : State) : State :=
  if s.measureArmed then
    { s.clockTick with measActive := true, measureArmed := false, tm0 := s.clockValue }
  else s

/-- S1 BLANK (R117). -/
def scanS1 (s : State) : Result :=
  .next ({ s.measureStart with latB := s.baseNs, phase := .s2 }.outWrite maskOe 0#14)

/-- S2 ADDR_SET (R118). -/
def scanS2 (s : State) : Result :=
  match s.rowaddr[s.curH.toNat]? with
  | some m => .next ({ s with phase := .s3 }.outWrite m 0#14)
  | none => .fault .rowAddrOutside

/-- S3 ADDR_CLR (R119). -/
def scanS3 (s : State) : Result :=
  match s.rowaddr[s.curH.toNat]? with
  | some m => .next ({ s with phase := .s4, curI := 0#3, curC := 0#15 }.outWrite 0#14 (addrGroup s.hr &&& ~~~ m))
  | none => .fault .rowAddrOutside

/-- The offset S4 reads: `off(c, h, i)` of the engine's cursors (R120). -/
def State.scanOffset (s : State) : Nat := offset s.width s.curC.toNat s.curH.toNat s.curI.toNat

/-- The colour mask of the byte S4 reads from the front buffer (R120). -/
def State.scanMask (s : State) : Lines := s.colorMask (s.readByte s.front s.scanOffset)

/-- S4 COLOR (R120). -/
def scanS4 (s : State) : Result :=
  if s.scanOffset < s.size then
    .next ({ s with phase := .s5 }.outWrite s.scanMask (maskColor &&& ~~~ s.scanMask))
  else .fault .bufferOutside

/-- S5 CLK_HI (R121). -/
def scanS5 (s : State) : Result :=
  .next ({ s with phase := .s6 }.outWrite maskClk 0#14)

/-- Whether a column of the plane is still to be shifted: `c < WIDTH - 1` (R122). -/
def State.moreColumns (s : State) : Bool := decide (s.curC.toNat + 1 < s.width)

/-- S6 CLK_LO (R122). -/
def scanS6 (s : State) : Result :=
  .next <|
    { s with
      curC := if s.moreColumns then s.curC + 1#15 else 0#15
      phase := if s.moreColumns then .s4 else .s7 }.outWrite 0#14 maskClk

/-- S7 LATCH_ON (R123). -/
def scanS7 (s : State) : Result :=
  .next ({ s with phase := .s8 }.outWrite (maskOe ||| maskLat) 0#14)

/-- S8 LATCH_OFF (R124). -/
def scanS8 (s : State) : Result :=
  .next ({ s with phase := .s9 }.outWrite 0#14 maskLat)

/-- S9 OE_OFF (R125). -/
def scanS9 (s : State) : Result :=
  .next ({ s with phase := .s10 }.outWrite 0#14 maskOe)

/-- S10 HOLD_START (R126). -/
def scanS10 (s : State) : Result :=
  .next { s.clockTick with t0 := s.clockValue, phase := .s11 }

/-- The length of the current hold, `B * 2^i` nanoseconds (R127). -/
def State.holdNs (s : State) : Nat := s.latB.toNat * 2 ^ s.curI.toNat

/-- Whether a clock value ends the hold: `t - t0 >= B << i`, on mathematical integers (R9, R127). -/
def State.holdOver (s : State) (t : Word) : Bool := decide (s.t0.toNat + s.holdNs ≤ t.toNat)

/-- Where S11 goes when the hold is over (R127): the next plane, or S12 after plane 7. -/
def State.endHold (s : State) : State :=
  if s.curI = 7#3 then { s with phase := .s12 } else { s with curI := s.curI + 1#3, phase := .s4 }

/-- S11 HOLD_POLL (R127): one poll of the busy-wait; the engine stays in S11 while the hold is not over. -/
def scanS11 (s : State) : Result :=
  .next (if s.holdOver s.clockValue then s.clockTick.endHold else s.clockTick)

/-- S12 ADVANCE (R128). -/
def scanS12 (s : State) : Result :=
  .next { s with curH := BitVec.ofNat 5 ((s.curH.toNat + 1) % s.hr), phase := .s13 }

/-- S13 SWAP_CHECK (R129). -/
def scanS13 (s : State) : Result :=
  .next { (if s.curH = 0#5 ∧ s.swapPending = true then s.swapExchange else s) with phase := .s14 }

/-- The measurement end of S14 (R130). -/
def State.measureEnd (s : State) : State :=
  if s.measActive then
    { s.clockTick with frameTimeNs := s.clockValue - s.tm0, frameTimeValid := true, measActive := false }
  else s

/-- S14 MEASURE_END (R130). -/
def scanS14 (s : State) : Result :=
  .next { s.measureEnd with phase := .s15 }

/-- S15 RUN_CHECK (R131). -/
def scanS15 (s : State) : Result :=
  .next (if s.running then { s with phase := .s1 } else { s with parked := true, phase := .idle })

/-- The engine's turn (R112): the micro-step its sequencer names; in `IDLE` it has no step. -/
def engineStep (s : State) : Result :=
  match s.phase with
  | .idle => .next s
  | .s1 => scanS1 s
  | .s2 => scanS2 s
  | .s3 => scanS3 s
  | .s4 => scanS4 s
  | .s5 => scanS5 s
  | .s6 => scanS6 s
  | .s7 => scanS7 s
  | .s8 => scanS8 s
  | .s9 => scanS9 s
  | .s10 => scanS10 s
  | .s11 => scanS11 s
  | .s12 => scanS12 s
  | .s13 => scanS13 s
  | .s14 => scanS14 s
  | .s15 => scanS15 s

end Sys2Proof.Machine
end

