-- ==== Sys2Proof/Machine/Agents.lean ====
section
/-! DEFINITION. One turn of an agent (R6, R57): a host agent issues its next command word or goes on with the blocking
command it is in; the engine performs its next micro-step. A turn of an agent that has no step (a hold, R10, R11)
leaves the block as it is: the spin re-tests its flag and finds it unchanged (R63, R170). -/

namespace Sys2Proof.Machine

/-- The fault code of a word that does not decode (R77). -/
def faultOfDecode (e : DecodeError) : FaultCode :=
  match e with
  | .illegalOpcode => .illegalOpcode
  | .reservedBits => .reservedBits

/-- Host agent `k` issues the command word `w`: decode, then the command's first step (R77, R166). -/
def issueWord (k : Nat) (w : Word) (s : State) : Result :=
  match decode w with
  | .ok i => exec i (s.issue k)
  | .error e => .next ((s.issue k).raiseFault k (faultOfDecode e))

/-- A turn of host agent `k`, whose record is `a` (R40). A `READY` agent with no word left has no step. -/
def hostAgentStep (k : Nat) (a : HostAgent) (s : State) : Result :=
  match a.hphase with
  | .ready =>
    match a.cmds with
    | [] => .next s
    | w :: _ => issueWord k w s
  | .swapPost => swapPostStep k s
  | .swapWait => swapWaitStep k a.g0 s
  | .startWait => startWaitStep k s
  | .dispWaitPark => dispWaitParkStep k s
  | .dispRelease => dispReleaseStep k s
  | .dispWaitOther => dispWaitOtherStep k s

/-- A turn of host agent `k`; a turn of an agent that does not exist is no step. -/
def hostStep (k : Nat) (s : State) : Result :=
  match s.hosts[k]? with
  | some a => hostAgentStep k a s
  | none => .next s

/-- One turn of an agent. -/
def agentStep (a : Agent) (s : State) : Result :=
  match a with
  | .host k => hostStep k s
  | .engine => engineStep s

/-- Whether host agent `k`, whose record is `a`, has a step (R10, R103, R143, R146, R148). -/
def hostAgentEnabled (a : HostAgent) (s : State) : Bool :=
  match a.hphase with
  | .ready => !a.cmds.isEmpty
  | .swapPost => !s.swapPending
  | .swapWait => decide (s.swapGen ≠ a.g0)
  | .startWait => !s.isStopping || s.disposing
  | .dispWaitPark => s.parked
  | .dispRelease => true
  | .dispWaitOther => s.disposed

/-- Whether an agent has a step (R10, R11, R112). -/
def State.enabled (s : State) (a : Agent) : Bool :=
  match a with
  | .engine => decide (s.phase ≠ .idle)
  | .host k => (s.hosts[k]?).any (fun h => hostAgentEnabled h s)

/-- The block advances by one turn: the scheduled agent takes its step (R57). -/
def turnStep (s : State) : Result := agentStep s.nextAgent s.endTurn

/-- Host agent 0 is `READY` with the command word `w` next in its program, and has the next turn. -/
def State.withCommand (s : State) (w : Word) : State :=
  { s with
    turns := .host 0 :: s.turns
    hosts :=
      match s.hosts with
      | [] => [{ HostAgent.fresh with cmds := [w] }]
      | a :: rest => { a with hphase := .ready, cmds := w :: a.cmds } :: rest }

end Sys2Proof.Machine
end

