-- ==== Sys2Proof/Machine/Step.lean ====
section
/-! DEFINITION. One step of the machine: one turn of one agent (R57). -/

namespace Sys2Proof.Machine

/-- One step: the scheduled agent's turn. -/
def step (s : State) : Host.Outcome State Fault Refusal := turnStep s

/-- The state in which the very next step issues the command word whose low `nbits` bits are `w`: host agent 0 is
`READY` with it on the port and has the next turn. Log 8. -/
def State.withFetchWord (s : State) (nbits w : Nat) : State := s.withCommand (wordOfBits nbits w)

end Sys2Proof.Machine
end

