-- ==== Sys2Proof/Machine/Assembler.lean ====
section
/-! DEFINITION. The assembler of 30_encoding.md: the syntax of R83, the operand orders of R84 and the pseudo-commands
of R85. A line is a list of characters. A line it refuses yields no word (93_implementation_defined). Lexical details
that R83 leaves open are in log 20. -/

namespace Sys2Proof.Machine

/-- What a line of assembly is. -/
inductive AsmLine where
  /-- nothing, or only a comment -/
  | blank
  /-- a command, with every operand in its field's range -/
  | command (i : Instr)
  /-- the assembler refuses the line (R83) -/
  | rejected
deriving DecidableEq, Repr

/-- An operand as written: a number, or a role (R83). -/
inductive AsmOperand where
  | num (z : Int)
  | role (r : Role)
deriving DecidableEq, Repr

/-- Spaces and tabs. -/
def isBlankChar (c : Char) : Bool := c == ' ' || c == '\t'

/-- A line without leading and trailing blanks. -/
def trimChars (l : List Char) : List Char :=
  ((l.dropWhile isBlankChar).reverse.dropWhile isBlankChar).reverse

/-- The line up to its comment: `;` starts a comment (R83). -/
def dropComment (l : List Char) : List Char := l.takeWhile (fun c => c != ';')

/-- A digit of base at most 16, in either case. -/
def digitValue (c : Char) : Option Nat :=
  if '0' ≤ c ∧ c ≤ '9' then some (c.toNat - '0'.toNat)
  else if 'a' ≤ c ∧ c ≤ 'f' then some (c.toNat - 'a'.toNat + 10)
  else if 'A' ≤ c ∧ c ≤ 'F' then some (c.toNat - 'A'.toNat + 10)
  else none

/-- The digits of a number, most significant first, after a value already read. -/
def digitsFrom (base : Nat) : Nat → List Char → Option Nat
  | acc, [] => some acc
  | acc, c :: cs =>
    match digitValue c with
    | some d => if d < base then digitsFrom base (acc * base + d) cs else none
    | none => none

/-- At least one digit of a base. -/
def parseDigits (base : Nat) (l : List Char) : Option Nat :=
  match l with
  | [] => none
  | _ :: _ => digitsFrom base 0 l

/-- A number (R83): hexadecimal `0x...`, or decimal with an optional `-`. -/
def parseNumber (l : List Char) : Option Int :=
  match l with
  | '0' :: 'x' :: ds => (parseDigits 16 ds).map Int.ofNat
  | '-' :: ds => (parseDigits 10 ds).map (fun n => -(n : Int))
  | ds => (parseDigits 10 ds).map Int.ofNat

/-- An operand (R83): a role name or a number. -/
def parseOperand (l : List Char) : Option AsmOperand :=
  match l with
  | ['b', 'a', 'c', 'k'] => some (.role .back)
  | ['f', 'r', 'o', 'n', 't'] => some (.role .front)
  | l => (parseNumber l).map .num

/-- A list cut at every comma. -/
def splitCommas : List Char → List (List Char)
  | [] => [[]]
  | c :: cs =>
    match splitCommas cs with
    | [] => [[c]]
    | p :: ps => if c == ',' then [] :: p :: ps else (c :: p) :: ps

/-- The operand list after the mnemonic: nothing, or operands between commas. -/
def parseOperands (l : List Char) : Option (List AsmOperand) :=
  match trimChars l with
  | [] => some []
  | cs => (splitCommas cs).mapM (fun p => parseOperand (trimChars p))

/-- An integer in the range of an unsigned field of `n` bits (R83). -/
def fitsUnsigned (n : Nat) (z : Int) : Bool := decide (0 ≤ z) && decide (z < 2 ^ n)

/-- A u8 operand (R83). -/
def u8Operand (z : Int) : Option Byte := if fitsUnsigned 8 z then some (BitVec.ofInt 8 z) else none

/-- A u32 operand (R83). -/
def u32Operand (z : Int) : Option U32 := if fitsUnsigned 32 z then some (BitVec.ofInt 32 z) else none

/-- An s16 operand (R83). -/
def s16Operand (z : Int) : Option Int := if fitsS16 z then some z else none

/-- `SETPIXEL` with its operands in range (R83, R84). -/
def asmSetpixel (col row r g b : Int) : Option Instr := do
  let col ← s16Operand col
  let row ← s16Operand row
  let r ← u8Operand r
  let g ← u8Operand g
  let b ← u8Operand b
  return .setpixel col row r g b

/-- `FILL` with its operands in range (R83, R84). -/
def asmFill (r g b : Int) : Option Instr := do
  let r ← u8Operand r
  let g ← u8Operand g
  let b ← u8Operand b
  return .fill r g b

/-- `DECODE` with its operands in range (R83, R84). -/
def asmDecode (sel : Role) (col row : Int) : Option Instr := do
  let col ← s16Operand col
  let row ← s16Operand row
  return .decode sel col row

/-- The pseudo-command `SETPIXEL24 col, row, rgb` with `rgb` in `[0, 2^24-1]` (R85): channels `rgb[23:16]`,
`rgb[15:8]`, `rgb[7:0]`. -/
def asmSetpixel24 (col row rgb : Int) : Option Instr :=
  if fitsUnsigned 24 rgb then
    let x : BitVec 24 := BitVec.ofInt 24 rgb
    asmSetpixel col row (x.extractLsb' 16 8).toNat (x.extractLsb' 8 8).toNat (x.extractLsb' 0 8).toNat
  else none

/-- The mnemonics (R76, R85). -/
inductive Mnemonic where
  | op (o : Opcode)
  | CLEAR | PRESENT | NOP | SETPIXEL24
deriving DecidableEq, Repr

/-- The spelling of a mnemonic (R76, R85). -/
def Mnemonic.text : Mnemonic → String
  | .op .SETPIXEL => "SETPIXEL"
  | .op .FILL => "FILL"
  | .op .DECODE => "DECODE"
  | .op .READBYTE => "READBYTE"
  | .op .REQSWAP => "REQSWAP"
  | .op .START => "START"
  | .op .STOP => "STOP"
  | .op .DISPOSE => "DISPOSE"
  | .op .SETBASE => "SETBASE"
  | .op .GETBASE => "GETBASE"
  | .op .MEASURE => "MEASURE"
  | .op .GETFRAMETIME => "GETFRAMETIME"
  | .op .GETWIDTH => "GETWIDTH"
  | .op .GETHEIGHT => "GETHEIGHT"
  | .op .GETSTATUS => "GETSTATUS"
  | .CLEAR => "CLEAR"
  | .PRESENT => "PRESENT"
  | .NOP => "NOP"
  | .SETPIXEL24 => "SETPIXEL24"

/-- Every mnemonic the assembler knows. -/
def Mnemonic.all : List Mnemonic := Opcode.all.map .op ++ [.CLEAR, .PRESENT, .NOP, .SETPIXEL24]

/-- The mnemonic that some characters spell. -/
def parseMnemonic (l : List Char) : Option Mnemonic := Mnemonic.all.find? (fun m => m.text.toList == l)

/-- A command from its mnemonic and operands, in the order of R84, or its expansion (R85); none when the operands do
not fit. -/
def assembleCommand (m : Mnemonic) (ops : List AsmOperand) : Option Instr :=
  match m, ops with
  | .op .SETPIXEL, [.num col, .num row, .num r, .num g, .num b] => asmSetpixel col row r g b
  | .op .FILL, [.num r, .num g, .num b] => asmFill r g b
  | .op .DECODE, [.role sel, .num col, .num row] => asmDecode sel col row
  | .op .READBYTE, [.role sel, .num off] => (u32Operand off).map (.readbyte sel)
  | .op .REQSWAP, [] => some .reqswap
  | .op .START, [] => some .start
  | .op .STOP, [] => some .stop
  | .op .DISPOSE, [] => some .dispose
  | .op .SETBASE, [.num ns] => (u32Operand ns).map .setbase
  | .op .GETBASE, [] => some .getbase
  | .op .MEASURE, [] => some .measure
  | .op .GETFRAMETIME, [] => some .getframetime
  | .op .GETWIDTH, [] => some .getwidth
  | .op .GETHEIGHT, [] => some .getheight
  | .op .GETSTATUS, [] => some .getstatus
  | .CLEAR, [] => asmFill 0 0 0
  | .PRESENT, [] => some .reqswap
  | .NOP, [] => some .getstatus
  | .SETPIXEL24, [.num col, .num row, .num rgb] => asmSetpixel24 col row rgb
  | _, _ => none

/-- One line of assembly (R83): a mnemonic, then operands between commas, then perhaps a comment. -/
def assembleLine (l : List Char) : AsmLine :=
  match trimChars (dropComment l) with
  | [] => .blank
  | cs =>
    match parseMnemonic (cs.takeWhile (fun c => !isBlankChar c)),
      parseOperands (cs.dropWhile (fun c => !isBlankChar c)) with
    | some m, some ops =>
      match assembleCommand m ops with
      | some i => .command i
      | none => .rejected
    | _, _ => .rejected

/-- The word of a line, if it is a command (R83, R84). -/
def assembleWord (l : List Char) : Option Word :=
  match assembleLine l with
  | .command i => some (encode i)
  | .blank => none
  | .rejected => none

end Sys2Proof.Machine
end

