-- ==== Sys2Proof/Machine/Observer.lean ====
section
/-! DEFINITION. What can be seen of the output lines from outside the block: the reference panel observer (R136 to
R138), a function of the trace of transactions, and the physical levels that PINMAP gives (R34). Neither is part of
the block and nothing in the block reads them. -/

namespace Sys2Proof.Machine

/-- The reference observer (R136): the shift list and the latched row, none when it is unknown (R137). -/
structure Observer where
  sr : List (BitVec 6)
  latched : Option (List (BitVec 6))
deriving DecidableEq, Repr

/-- The observer before the first transaction: nothing shifted, the latched row unknown (R136). -/
def Observer.initial : Observer where
  sr := []
  latched := none

/-- The last `n` entries of a list. -/
def keepLast (n : Nat) (l : List (BitVec 6)) : List (BitVec 6) := l.drop (l.length - n)

/-- The colour lanes on the lines, `OUT[5:0]`. -/
def laneBits (l : Lines) : BitVec 6 := l.extractLsb' 0 6

/-- Whether a transaction changes an output line from 0 to 1. -/
def Transaction.rises (t : Transaction) (bit : Nat) : Bool := !t.before.getLsbD bit && t.after.getLsbD bit

/-- At a rising `CLK` the observer shifts in the colour lanes and keeps the last `WIDTH` entries (R136). -/
def Observer.onClk (width : Nat) (t : Transaction) (o : Observer) : Observer :=
  if t.rises 11 then { o with sr := keepLast width (o.sr ++ [laneBits t.after]) } else o

/-- At a rising `LAT` the observer latches the shift list if it has `WIDTH` entries; otherwise the latched row is
unknown (R137). -/
def Observer.onLat (width : Nat) (t : Transaction) (o : Observer) : Observer :=
  if t.rises 12 then { o with latched := if o.sr.length = width then some o.sr else none } else o

/-- One transaction as the observer sees it (R136, R137). No transaction of the engine raises both lines. -/
def Observer.transaction (width : Nat) (t : Transaction) (o : Observer) : Observer := (o.onClk width t).onLat width t

/-- The observer after a trace, newest transaction first. -/
def Observer.ofTrace (width : Nat) (trace : List Transaction) : Observer :=
  trace.foldr (Observer.transaction width) Observer.initial

/-- The observer of the block's transactions so far. -/
def State.observer (s : State) : Observer := Observer.ofTrace s.width s.trace

/-- What the observer shows while a row is lit (R138): two rows and the latched lanes, entry `k` at shift position `k`,
bits 2:0 for the upper row and bits 5:3 for the lower one; none when the latched row is unknown. -/
structure Shown where
  upperRow : Nat
  lowerRow : Nat
  lanes : Option (List (BitVec 6))
deriving DecidableEq, Repr

/-- The observer's display. -/
inductive Display where
  /-- `OE` is asserted: nothing is shown (R138) -/
  | dark
  /-- two rows are lit (R138) -/
  | rows (s : Shown)
  /-- the block has released the lines: `OUT` has no meaning and the levels, so the display, are the platform's (R37, R196).
  Log 13. -/
  | platform
deriving DecidableEq, Repr

/-- The row address on the lines, `OUT[6 + NADDR - 1 : 6]` (R138). -/
def lineAddress (hr : Nat) (out : Lines) : Nat := ((out &&& addrGroup hr) >>> 6).toNat

/-- What the observer shows now (R138). R138 reads `OUT`, and R37 gives `OUT` no meaning once the lines are released, so
the display of that time is left to the platform. DESIGN CHOICE of form, log 13. -/
def State.shown (s : State) : Display :=
  if !s.linesHeld then .platform
  else if s.out.getLsbD 13 then .dark
  else .rows ⟨lineAddress s.hr s.out, lineAddress s.hr s.out + s.hr, s.observer.latched⟩

/-- The lines that the block has acquired and drives (R35, R37, R184): those it uses, from construction until the release. -/
def State.drivenLines (s : State) : Lines := if s.linesHeld then usedLines s.hr else 0#14

/-- The physical line of logical line `k` and whether it is at a high level (R7, R34), for a line that the block drives.
Unused address lines are never acquired (R35), and after the release the levels are the platform's (R37, log 13). -/
def State.pinLevel (s : State) (k : Nat) : Option (Nat × Bool) :=
  if s.drivenLines.getLsbD k then (s.pinmap[k]?).map (fun p => (p.line, s.out.getLsbD k != p.activeLow)) else none

end Sys2Proof.Machine
end

