-- ==== Sys2Proof/Safety.lean ====
section
/-! DEFINITION. The terms in which claims about the block are stated: the invariants that the spec gives every reachable
state, the positions inside a half-row cycle, and runs of the engine. -/

namespace Sys2Proof.Machine

/-! ### Invariants -/

/-- The geometry is one that construction accepts (R183). -/
def State.GeometryOk (s : State) : Prop := geometryOk s.width s.rows = true

/-- The read-only tables are those construction made (R23, R24, R114, R115). -/
def State.TablesOk (s : State) : Prop :=
  s.rowaddr = rowAddrTable s.hr ∧ s.cmt = cmtTable ∧ gammaLegal s.gamma = true

/-- One buffer: canonical, inside `[0, S)` (R53), bits 7:6 of every byte 0 (R22). -/
def BufferOk (size : Nat) (m : Memory) : Prop :=
  m.wf = true ∧ m.within size = true ∧ ∀ off, m.read off &&& 0xC0#8 = 0#8

/-- Both buffers. -/
def State.BuffersOk (s : State) : Prop := BufferOk s.size s.buf0 ∧ BufferOk s.size s.buf1

/-- The phases S7 to S15, in which no column is being shifted. -/
def Phase.pastColumns (p : Phase) : Bool :=
  match p with
  | .s7 | .s8 | .s9 | .s10 | .s11 | .s12 | .s13 | .s14 | .s15 => true
  | .idle | .s1 | .s2 | .s3 | .s4 | .s5 | .s6 => false

/-- The phases S12 to S15, after the last plane of a cycle. -/
def Phase.pastPlanes (p : Phase) : Bool :=
  match p with
  | .s12 | .s13 | .s14 | .s15 => true
  | .idle | .s1 | .s2 | .s3 | .s4 | .s5 | .s6 | .s7 | .s8 | .s9 | .s10 | .s11 => false

/-- The cursors lie in the geometry (R38), and stand where the finished loops left them (R122, R127). -/
def State.CursorsOk (s : State) : Prop :=
  s.curH.toNat < s.hr ∧ s.curC.toNat < s.width
    ∧ (s.phase.pastColumns = true → s.curC = 0#15) ∧ (s.phase.pastPlanes = true → s.curI = 7#3)

/-- The flags of the scheduler and of teardown (R26, R29, R37, R39). -/
structure State.FlagsOk (s : State) : Prop where
  /-- the pair `RUNNING = PARKED = 1` is unreachable (R26) -/
  notBoth : ¬ (s.running = true ∧ s.parked = true)
  /-- the engine is `IDLE` exactly when it is parked (R39) -/
  parkedIdle : s.parked = true ↔ s.phase = .idle
  /-- teardown has cleared `RUNNING` for good (R145, R146) -/
  stopped : s.disposing = true → s.running = false
  /-- a disposed block has been parked by its teardown (R145) -/
  disposedParked : s.disposed = true → s.disposing = true ∧ s.parked = true
  /-- the lines are held until the block is disposed (R37, R147) -/
  held : s.linesHeld = !s.disposed
  /-- the recorded fault is none or one of the four codes (R164) -/
  faultCode : s.fault.toNat ≤ 4

/-- Whether a host agent's `DISPOSE` is the one that will release the lines (R145). -/
def HostAgent.tearsDown (a : HostAgent) : Bool := decide (a.hphase = .dispWaitPark) || decide (a.hphase = .dispRelease)

/-- The host agents' progress against the flags (R40, R107, R145, R148). -/
structure State.HostsOk (s : State) : Prop where
  /-- exactly one agent tears the block down while it is being disposed, so the lines are released once (R148) -/
  oneTeardown : s.hosts.countP HostAgent.tearsDown = if s.disposing && !s.disposed then 1 else 0
  /-- the release comes after the park wait (R146) -/
  releaseParked : ∀ a ∈ s.hosts, a.hphase = .dispRelease → s.parked = true
  /-- a waiting `DISPOSE` waits for a teardown that has begun (R148) -/
  waitOther : ∀ a ∈ s.hosts, a.hphase = .dispWaitOther → s.disposing = true
  /-- a pending swap is some agent's, and that agent waits for the next change of `SWAP_GEN` (R104, R107) -/
  poster : s.swapPending = true → ∃ a ∈ s.hosts, a.hphase = .swapWait ∧ a.g0 = s.swapGen

/-- What a phase says of the output-disable line (R117, R123 to R125, R190). -/
def State.OeOk (s : State) : Prop :=
  match s.phase with
  | .s2 | .s3 | .s8 | .s9 => s.out.getLsbD 13 = true
  | .s4 | .s5 | .s6 | .s7 => s.out.getLsbD 13 = decide (s.curI = 0#3)
  | .s10 | .s11 | .s12 | .s13 | .s14 | .s15 => s.out.getLsbD 13 = false
  | .idle | .s1 => True

/-- What a phase says of the address lines (R35, R118, R119): those of unused lines are 0; from S4 until `h` moves on in
S12 they are `h`. -/
def State.AddrOk (s : State) : Prop :=
  s.out &&& unusedAddr s.hr = 0#14 ∧
  match s.phase with
  | .s3 => rowAddrEntry s.curH.toNat &&& ~~~ s.out = 0#14
  | .s4 | .s5 | .s6 | .s7 | .s8 | .s9 | .s10 | .s11 | .s12 => s.out &&& maskAddr = rowAddrEntry s.curH.toNat
  | .idle | .s1 | .s2 | .s13 | .s14 | .s15 => True

/-- No latch of the clock is ahead of the clock (R41). -/
def State.ClockOk (s : State) : Prop :=
  s.t0.toNat ≤ s.clockLast.toNat ∧ s.tm0.toNat ≤ s.clockLast.toNat

/-- Everything the spec gives every reachable state, but for the shift and latch lines, which `OUT_RESET` leaves open. -/
structure State.Inv (s : State) : Prop where
  geometry : s.GeometryOk
  tables : s.TablesOk
  buffers : s.BuffersOk
  cursors : s.CursorsOk
  flags : s.FlagsOk
  hosts : s.HostsOk
  oe : s.OeOk
  addr : s.AddrOk
  clock : s.ClockOk

/-! ### A measured cycle -/

/-- A measured cycle has lasted at least the holds it has finished, `B * (2^i - 1)`, and `255 * B` after the last
(R130, R134, R154). -/
def State.MeasureOk (s : State) : Prop :=
  s.measActive = true →
    match s.phase with
    | .idle | .s1 | .s15 => False
    | .s2 | .s3 => s.tm0.toNat ≤ s.clockLast.toNat
    | .s4 | .s5 | .s6 | .s7 | .s8 | .s9 | .s10 =>
      s.tm0.toNat + s.latB.toNat * (2 ^ s.curI.toNat - 1) ≤ s.clockLast.toNat
    | .s11 =>
      s.tm0.toNat + s.latB.toNat * (2 ^ s.curI.toNat - 1) ≤ s.t0.toNat ∧ s.t0.toNat ≤ s.clockLast.toNat
    | .s12 | .s13 | .s14 => s.tm0.toNat + 255 * s.latB.toNat ≤ s.clockLast.toNat

/-! ### What the observer has seen -/

/-- The lanes of column `c` of plane `i` of the half-row being scanned, as the front buffer holds them (R139). -/
def State.frontLanes (s : State) (i c : Nat) : BitVec 6 :=
  (s.readByte s.front (offset s.width c s.curH.toNat i)).setWidth 6

/-- Columns 0 to `n - 1` of a plane of the half-row being scanned. -/
def State.frontColumns (s : State) (i n : Nat) : List (BitVec 6) := (List.range n).map (s.frontLanes i)

/-- The observer keeps up with the engine (R136, R137, R139): the columns shifted so far, then the latched plane. It
needs `CLK` and `LAT` low where the engine has not raised them, which `OUT_RESET` leaves open for the first plane. -/
structure State.DisplayOk (s : State) : Prop where
  clk : s.out.getLsbD 11 = decide (s.phase = .s6)
  lat : s.out.getLsbD 12 = decide (s.phase = .s8)
  short : s.observer.sr.length ≤ s.width
  shifted :
    match s.phase with
    | .s4 => s.frontColumns s.curI.toNat s.curC.toNat <:+ s.observer.sr
    | .s5 => s.frontColumns s.curI.toNat s.curC.toNat <:+ s.observer.sr
        ∧ laneBits s.out = s.frontLanes s.curI.toNat s.curC.toNat
    | .s6 => s.frontColumns s.curI.toNat (s.curC.toNat + 1) <:+ s.observer.sr
    | .s7 => s.observer.sr = s.frontColumns s.curI.toNat s.width
    | .idle | .s1 | .s2 | .s3 | .s8 | .s9 | .s10 | .s11 | .s12 | .s13 | .s14 | .s15 => True
  latched :
    match s.phase with
    | .s4 | .s5 | .s6 | .s7 =>
      s.curI ≠ 0#3 → s.observer.latched = some (s.frontColumns (s.curI.toNat - 1) s.width)
    | .s8 | .s9 | .s10 | .s11 | .s12 => s.observer.latched = some (s.frontColumns s.curI.toNat s.width)
    | .idle | .s1 | .s2 | .s3 | .s13 | .s14 | .s15 => True

/-! ### Positions in a half-row cycle -/

/-- How many transactions of its half-row cycle the engine has made (R113, R133). -/
def State.cycleTx (s : State) : Nat :=
  let plane := 3 + s.curI.toNat * (3 * s.width + 3)
  match s.phase with
  | .idle => 0
  | .s1 => 0
  | .s2 => 1
  | .s3 => 2
  | .s4 => plane + 3 * s.curC.toNat
  | .s5 => plane + 3 * s.curC.toNat + 1
  | .s6 => plane + 3 * s.curC.toNat + 2
  | .s7 => plane + 3 * s.width
  | .s8 => plane + 3 * s.width + 1
  | .s9 => plane + 3 * s.width + 2
  | .s10 => plane + 3 * s.width + 3
  | .s11 => plane + 3 * s.width + 3
  | .s12 => 24 * s.width + 27
  | .s13 => 24 * s.width + 27
  | .s14 => 24 * s.width + 27
  | .s15 => 24 * s.width + 27

/-- How many micro-steps of its half-row cycle the engine has finished, each hold counted as one S10 and one S11
(R113). -/
def State.cyclePos (s : State) : Nat :=
  let plane := 3 + s.curI.toNat * (3 * s.width + 5)
  match s.phase with
  | .idle => 0
  | .s1 => 0
  | .s2 => 1
  | .s3 => 2
  | .s4 => plane + 3 * s.curC.toNat
  | .s5 => plane + 3 * s.curC.toNat + 1
  | .s6 => plane + 3 * s.curC.toNat + 2
  | .s7 => plane + 3 * s.width
  | .s8 => plane + 3 * s.width + 1
  | .s9 => plane + 3 * s.width + 2
  | .s10 => plane + 3 * s.width + 3
  | .s11 => plane + 3 * s.width + 4
  | .s12 => 24 * s.width + 43
  | .s13 => 24 * s.width + 44
  | .s14 => 24 * s.width + 45
  | .s15 => 24 * s.width + 46

/-- `n` turns of the engine with no other agent in between. -/
def engineRun : Nat → State → Result
  | 0, s => .next s
  | n + 1, s =>
    match engineStep s with
    | .next t => engineRun n t
    | .fault f => .fault f
    | .refused r => .refused r

/-- How many of `n` turns of the engine are polls that do not end their hold (R127). -/
def heldPolls : Nat → State → Nat
  | 0, _ => 0
  | n + 1, s =>
    match engineStep s with
    | .next t => (if s.phase = .s11 ∧ t.phase = .s11 then 1 else 0) + heldPolls n t
    | .fault _ => 0
    | .refused _ => 0

/-- The state after `n` reads of the clock and nothing else (R41). -/
def State.clockAfter (s : State) : Nat → State
  | 0 => s
  | n + 1 => s.clockTick.clockAfter n

/-- The phases that can follow a phase when the engine takes its step (R117 to R131). -/
def Phase.next : Phase → List Phase
  | .idle => [.idle]
  | .s1 => [.s2]
  | .s2 => [.s3]
  | .s3 => [.s4]
  | .s4 => [.s5]
  | .s5 => [.s6]
  | .s6 => [.s4, .s7]
  | .s7 => [.s8]
  | .s8 => [.s9]
  | .s9 => [.s10]
  | .s10 => [.s11]
  | .s11 => [.s11, .s4, .s12]
  | .s12 => [.s13]
  | .s13 => [.s14]
  | .s14 => [.s15]
  | .s15 => [.s1, .idle]

/-! ### Reading commands -/

/-- The commands that only read: the getters, `DECODE` and `READBYTE` (R56). -/
def readsOnly : Instr → Bool
  | .decode _ _ _ => true
  | .readbyte _ _ => true
  | .getbase => true
  | .getframetime => true
  | .getwidth => true
  | .getheight => true
  | .getstatus => true
  | .setpixel _ _ _ _ _ => false
  | .fill _ _ _ => false
  | .reqswap => false
  | .start => false
  | .stop => false
  | .dispose => false
  | .setbase _ => false
  | .measure => false

/-- Whether a command's operands raise `BAD_OPERAND` (R166(4)): `DECODE` out of bounds (R98), `READBYTE` with `off >= S`
(R100), and no other command. -/
def State.operandBad (s : State) : Instr → Bool
  | .decode _ col row => !s.inBounds col row
  | .readbyte _ off => decide (s.size ≤ off.toNat)
  | .getbase => false
  | .getframetime => false
  | .getwidth => false
  | .getheight => false
  | .getstatus => false
  | .setpixel _ _ _ _ _ => false
  | .fill _ _ _ => false
  | .reqswap => false
  | .start => false
  | .stop => false
  | .dispose => false
  | .setbase _ => false
  | .measure => false

/-! ### Sequences of commands -/

/-- The first steps of several commands of one host agent, one after the other. -/
def execAll : List Instr → State → Result
  | [], s => .next s
  | i :: rest, s =>
    match exec i s with
    | .next t => execAll rest t
    | .fault f => .fault f
    | .refused r => .refused r

/-! ### Views -/

/-- The address lines of `OUT` (R34). -/
def State.addrLinesOut (s : State) : Lines := s.out &&& maskAddr

/-- The offset of a plane of a pixel, `off(col, row mod H, i)` (R52). -/
def State.pixelOffset (s : State) (col row : Int) (i : Nat) : Nat := s.pixelBase col row + i

/-- Whether an offset is one of the eight bytes of a pixel (R52). -/
def State.inPixel (s : State) (col row : Int) (off : Nat) : Bool :=
  decide (s.pixelBase col row ≤ off) && decide (off < s.pixelBase col row + 8)

/-- The lowest lane of a row's group: 0 for the upper row group, 3 for the lower (R21, R52). -/
def State.groupLane (s : State) (row : Int) : Nat := if row < s.hr then 0 else 3

/-- A buffer byte in which exactly the three lanes from `lane` on were rewritten (R90). -/
def LanesWritten (lane : Nat) (old new : Byte) (r g b : Bool) : Prop :=
  new.getLsbD lane = r ∧ new.getLsbD (lane + 1) = g ∧ new.getLsbD (lane + 2) = b
    ∧ ∀ k, k < lane ∨ lane + 3 ≤ k → new.getLsbD k = old.getLsbD k

/-- The triple `(GAMMA[r], GAMMA[g], GAMMA[b])` (R89). -/
def State.gammaRgb (s : State) (r g b : Byte) : Rgb := ⟨s.gammaOf r, s.gammaOf g, s.gammaOf b⟩

end Sys2Proof.Machine
end

