-- ==== Sys2Proof/Certificates/Slice0/Obligations.lean ====
section
/-! DEFINITION. What is claimed of the model, for the provers. Each docstring names the rules of spec/ that the claim
rests on. Where OBLIGATIONS.json gives a claim the basis 'derived', the spec marks a rule named here as its own inference,
or the claim gives only a part of it, or it rests on the log entry named. A hypothesis `s.tornDown = false` is the lifecycle check of R166(3); the claims about the other case are
`Obligations.TornDownRaisesUseAfterDispose` and `Obligations.DisposeSteps`. -/

open Sys2Proof Sys2Proof.Machine

/-! ### Encoding -/

/-- Decoding the word of a well-formed command gives the command back, with every operand (R68 to R77). -/
def Obligations.DecodeOfEncode : Prop :=
  ∀ i : Instr, i.wellFormed = true → decode (encode i) = .ok i

/-- A word that decodes is the one word of a well-formed command (R68 to R77, R80). -/
def Obligations.EncodeOfDecode : Prop :=
  ∀ (w : Word) (i : Instr), decode w = .ok i → i.wellFormed = true ∧ encode i = w

/-- R78: a word whose opcode is not in the map raises `ILLEGAL_OPCODE`, code 1, and has no other effect. -/
def Obligations.IllegalOpcodeRecorded : Prop :=
  FaultCode.illegalOpcode.code = 1#8 ∧
  ∀ w : Word,
    opField w ∉ [0x01#8, 0x02#8, 0x03#8, 0x04#8, 0x10#8, 0x20#8, 0x21#8, 0x22#8,
      0x30#8, 0x31#8, 0x32#8, 0x33#8, 0x34#8, 0x35#8, 0x36#8] →
    decode w = .error .illegalOpcode ∧
    ∀ (k : Nat) (s : State), issueWord k w s = .next ((s.issue k).raiseFault k .illegalOpcode)

/-- R79: a word with a legal opcode and a nonzero bit under its format's reserved mask raises `RESERVED_BITS`, code 2,
and has no other effect. -/
def Obligations.ReservedBitsRecorded : Prop :=
  FaultCode.reservedBits.code = 2#8 ∧
  ∀ (w : Word) (op : Opcode), opField w = op.code → w &&& op.format.resMask ≠ 0#64 →
    decode w = .error .reservedBits ∧
    ∀ (k : Nat) (s : State), issueWord k w s = .next ((s.issue k).raiseFault k .reservedBits)

/-- R86: the worked encodings, decoded. -/
def Obligations.WorkedEncodingsDecode : Prop :=
  decode 0x0100000000FF0000#64 = .ok (.setpixel 0 0 255 0 0) ∧
  decode 0x01FFFF0000FFFFFF#64 = .ok (.setpixel (-1) 0 255 255 255) ∧
  decode 0x0100000020FFFFFF#64 = .ok (.setpixel 0 32 255 255 255) ∧
  decode 0x0100030014FF00FF#64 = .ok (.setpixel 3 20 255 0 255) ∧
  decode 0x0200000000FFFFFF#64 = .ok (.fill 255 255 255) ∧
  decode 0x0300000000000000#64 = .ok (.decode .back 0 0) ∧
  decode 0x0300000000000001#64 = .ok (.decode .front 0 0) ∧
  decode 0x0400000000000005#64 = .ok (.readbyte .back 5) ∧
  decode 0x0400000100000FFF#64 = .ok (.readbyte .front 4095) ∧
  decode 0x1000000000000000#64 = .ok .reqswap ∧
  decode 0x2000000000000000#64 = .ok .start ∧
  decode 0x2100000000000000#64 = .ok .stop ∧
  decode 0x2200000000000000#64 = .ok .dispose ∧
  decode 0x3000000000000064#64 = .ok (.setbase 100) ∧
  decode 0x3600000000000000#64 = .ok .getstatus

/-- R84, R85: the pseudo-commands expand to their commands; `SETPIXEL24` splits `rgb` into its three bytes. -/
def Obligations.PseudoCommandsExpand : Prop :=
  assembleCommand .CLEAR [] = some (.fill 0#8 0#8 0#8) ∧
  assembleCommand .PRESENT [] = some .reqswap ∧
  assembleCommand .NOP [] = some .getstatus ∧
  ∀ (col row : Int) (rgb : BitVec 24), fitsS16 col = true → fitsS16 row = true →
    assembleCommand .SETPIXEL24 [.num col, .num row, .num rgb.toNat] =
      some (.setpixel col row (rgb.extractLsb' 16 8) (rgb.extractLsb' 8 8) (rgb.extractLsb' 0 8))

/-- R83: a line the assembler accepts is a well-formed command, so its word decodes to it. Lexical details that R83 leaves
open are the model's (log 20). -/
def Obligations.AssembledLinesAreWellFormed : Prop :=
  ∀ (line : List Char) (i : Instr), assembleLine line = .command i →
    i.wellFormed = true ∧ ∃ w, assembleWord line = some w ∧ decode w = .ok i

/-! ### One step -/

/-- When the next turn is a READY host agent's, the step issues its next word: the first step of the command the word
decodes to, or the recorded fault of a word that decodes to none (R57, R77 to R79). Which agent has the turn, that the word
is the first of the agent's list, and who the issuer is are the model's choice (logs 7 and 8). -/
def Obligations.StepRunsDecodedCommand : Prop :=
  ∀ (s : State) (k : Nat) (a : HostAgent) (w : Word) (ws : List Word),
    s.nextAgent = .host k → s.hosts[k]? = some a → a.hphase = .ready → a.cmds = w :: ws →
    step s = issueWord k w s.endTurn ∧
    (∀ i, decode w = .ok i → step s = exec i (s.endTurn.issue k)) ∧
    (decode w = .error .illegalOpcode → step s = .next ((s.endTurn.issue k).raiseFault k .illegalOpcode)) ∧
    (decode w = .error .reservedBits → step s = .next ((s.endTurn.issue k).raiseFault k .reservedBits))

/-- The model's command input (log 8): with the word of a well-formed command placed by `withFetchWord`, the very next
step runs that command as host agent 0. -/
def Obligations.WithFetchWordRunsCommand : Prop :=
  ∀ (s : State) (i : Instr), i.wellFormed = true →
    step (s.withFetchWord 64 (encode i).toNat) = exec i ((s.withFetchWord 64 (encode i).toNat).endTurn.issue 0)

/-- R10, R11, R112: an agent's turn leaves the block exactly as it is when, and only when, the agent has no step: an
`IDLE` engine, a host agent with no word to issue, or one whose hold condition is not met. That a hold is a turn
without effect is the model's reading (log 9). -/
def Obligations.TurnChangesNothingIffHeld : Prop :=
  ∀ (s : State) (a : Agent), agentStep a s = .next s ↔ s.enabled a = false

/-- R14, R19, R24, R37, R45, R177: which agent writes what, for every step of the block. -/
def Obligations.WriterTable : Prop :=
  ∀ s t : State,
    (∀ a, agentStep a s = .next t →
      t.width = s.width ∧ t.rows = s.rows ∧ t.pinmap = s.pinmap ∧ t.gamma = s.gamma ∧ t.rowaddr = s.rowaddr
        ∧ t.cmt = s.cmt ∧ t.buf s.front = s.buf s.front ∧ t.hosts.length = s.hosts.length
        ∧ t.turns = s.turns ∧ t.turnsTaken = s.turnsTaken) ∧
    (∀ k, hostStep k s = .next t →
      t.front = s.front ∧ t.swapGen = s.swapGen ∧ t.out = s.out ∧ t.trace = s.trace ∧ t.frameTimeNs = s.frameTimeNs
        ∧ t.frameTimeValid = s.frameTimeValid ∧ t.latB = s.latB ∧ t.t0 = s.t0 ∧ t.tm0 = s.tm0
        ∧ t.measActive = s.measActive ∧ t.clockLast = s.clockLast ∧ t.clockDraws = s.clockDraws
        ∧ t.clockReads = s.clockReads
        ∧ (s.swapPending = true → t.swapPending = true) ∧ (s.parked = false → t.parked = false)
        ∧ (s.measureArmed = true → t.measureArmed = true) ∧ (s.disposing = true → t.disposing = true)
        ∧ (s.disposed = true → t.disposed = true) ∧ (s.fault ≠ 0#8 → t.fault = s.fault)) ∧
    (engineStep s = .next t →
      t.running = s.running ∧ t.disposing = s.disposing ∧ t.disposed = s.disposed ∧ t.linesHeld = s.linesHeld
        ∧ t.fault = s.fault ∧ t.baseNs = s.baseNs ∧ t.hosts = s.hosts ∧ t.buf0 = s.buf0 ∧ t.buf1 = s.buf1
        ∧ t.issuer = s.issuer
        ∧ (s.swapPending = false → t.swapPending = false) ∧ (s.parked = true → t.parked = true)
        ∧ (s.measureArmed = false → t.measureArmed = false))

/-! ### Pixel encoder -/

/-- R51: the offset map is a bijection from columns, half-rows and planes onto `[0, S)`, with the stated inverse. -/
def Obligations.OffsetMapIsBijective : Prop :=
  ∀ width hr : Nat,
    (∀ c h i, offset width c h i = 8 * c + 8 * h * width + i) ∧
    (∀ c h i, c < width → h < hr → i < 8 →
      offset width c h i < 8 * width * hr ∧ offsetCol width (offset width c h i) = c
        ∧ offsetRow width (offset width c h i) = h ∧ offsetPlane (offset width c h i) = i) ∧
    (∀ off, off < 8 * width * hr →
      offsetCol width off < width ∧ offsetRow width off < hr ∧ offsetPlane off < 8
        ∧ offset width (offsetCol width off) (offsetRow width off) (offsetPlane off) = off)

/-- R89, R90, R92: an in-bounds `SETPIXEL` rewrites the pixel's three lanes in its eight bytes of the back buffer, plane
`i` taking bit `i` of the gamma-corrected channels; every other byte of it, and everything else but the response, stays. -/
def Obligations.SetpixelWritesItsLanes : Prop :=
  ∀ (s : State) (col row : Int) (r g b : Byte),
    s.tornDown = false → (s.buf s.back).wf = true → s.inBounds col row = true →
    ∃ m : Memory,
      exec (.setpixel col row r g b) s = .next ((s.setBuf s.back m).complete s.issuer 0#64) ∧ m.wf = true ∧
      (∀ i, i < 8 →
        LanesWritten (s.groupLane row) (s.readByte s.back (s.pixelOffset col row i)) (m.read (s.pixelOffset col row i))
          ((s.gammaOf r).getLsbD i) ((s.gammaOf g).getLsbD i) ((s.gammaOf b).getLsbD i)) ∧
      ∀ off, s.inPixel col row off = false → m.read off = s.readByte s.back off

/-- R91: a `SETPIXEL` out of bounds changes no state and raises no fault; it completes with response 0. -/
def Obligations.SetpixelClips : Prop :=
  ∀ (s : State) (col row : Int) (r g b : Byte),
    s.tornDown = false → (col < 0 ∨ (s.width : Int) ≤ col ∨ row < 0 ∨ (s.rows : Int) ≤ row) →
    exec (.setpixel col row r g b) s = .next (s.complete s.issuer 0#64)

/-- R99, R101(c): after an in-bounds `SETPIXEL`, `DECODE back` of that pixel answers the gamma-corrected triple, and every
other pixel of both buffers decodes as before. -/
def Obligations.SetpixelThenDecode : Prop :=
  ∀ (s : State) (col row : Int) (r g b : Byte),
    s.Inv → s.tornDown = false → s.inBounds col row = true →
    ∃ t : State,
      exec (.setpixel col row r g b) s = .next t ∧
      exec (.decode .back col row) t = .next (t.complete t.issuer (s.gammaRgb r g b).word) ∧
      (∀ col' row', s.inBounds col' row' = true → (col', row') ≠ (col, row) →
        t.dec t.back col' row' = s.dec s.back col' row') ∧
      ∀ col' row', t.dec t.front col' row' = s.dec s.front col' row'

/-- R101(d): two `SETPIXEL`s of different pixels commute. -/
def Obligations.SetpixelsCommute : Prop :=
  ∀ (s : State) (col row col' row' : Int) (r g b r' g' b' : Byte),
    s.Inv → (col, row) ≠ (col', row') →
    execAll [.setpixel col row r g b, .setpixel col' row' r' g' b'] s =
      execAll [.setpixel col' row' r' g' b', .setpixel col row r g b] s

/-- R95: `FILL` rewrites all six lanes of every byte of the back buffer, plane by plane; bits 7:6, every offset outside
`[0, S)`, and everything else but the response, stay. -/
def Obligations.FillWritesEveryLane : Prop :=
  ∀ (s : State) (r g b : Byte), s.tornDown = false → (s.buf s.back).wf = true →
    ∃ m : Memory,
      exec (.fill r g b) s = .next ((s.setBuf s.back m).complete s.issuer 0#64) ∧ m.wf = true ∧
      (∀ off, off < s.size → ∀ lane, lane = 0 ∨ lane = 3 →
        (m.read off).getLsbD lane = (s.gammaOf r).getLsbD (off % 8)
          ∧ (m.read off).getLsbD (lane + 1) = (s.gammaOf g).getLsbD (off % 8)
          ∧ (m.read off).getLsbD (lane + 2) = (s.gammaOf b).getLsbD (off % 8)) ∧
      (∀ off k, 6 ≤ k → (m.read off).getLsbD k = (s.readByte s.back off).getLsbD k) ∧
      ∀ off, s.size ≤ off → m.read off = s.readByte s.back off

/-- R94: `FILL` has exactly the effect of `SETPIXEL` at every in-bounds coordinate, in any order (and with any
repetitions or clipped coordinates among them). -/
def Obligations.FillIsSetpixelEverywhere : Prop :=
  ∀ (s : State) (r g b : Byte) (cs : List (Int × Int)), s.Inv → s.tornDown = false →
    (∀ col row, s.inBounds col row = true → (col, row) ∈ cs) →
    execAll (cs.map (fun p => Instr.setpixel p.1 p.2 r g b)) s = exec (.fill r g b) s

/-- R101(b): after `FILL`, `DECODE back` of every coordinate answers the same gamma-corrected triple. -/
def Obligations.FillIsUniform : Prop :=
  ∀ (s : State) (r g b : Byte), s.Inv → s.tornDown = false →
    ∃ t : State, exec (.fill r g b) s = .next t ∧
      ∀ col row, s.inBounds col row = true →
        exec (.decode .back col row) t = .next (t.complete t.issuer (s.gammaRgb r g b).word)

/-- R82, R97, R98: an in-bounds `DECODE` answers the triple whose bit `i` of each channel is that channel's lane of plane
`i` in the buffer of the named role, red in bits 23:16, green in 15:8, blue in 7:0 and 0 above, and changes nothing but the
response. -/
def Obligations.DecodeAnswersPixel : Prop :=
  ∀ (s : State) (sel : Role) (col row : Int), s.tornDown = false → s.inBounds col row = true →
    ∃ x : Rgb,
      exec (.decode sel col row) s = .next (s.complete s.issuer x.word) ∧
      x.word.extractLsb' 16 8 = x.r ∧ x.word.extractLsb' 8 8 = x.g ∧ x.word.extractLsb' 0 8 = x.b ∧
      x.word.extractLsb' 24 40 = 0#40 ∧
      ∀ i, i < 8 →
        let v := s.readByte (s.roleBuf sel) (s.pixelOffset col row i)
        x.r.getLsbD i = v.getLsbD (s.groupLane row) ∧ x.g.getLsbD i = v.getLsbD (s.groupLane row + 1)
          ∧ x.b.getLsbD i = v.getLsbD (s.groupLane row + 2)

/-- R98, R100, R164: `DECODE` out of bounds and `READBYTE` with `off >= S` record `BAD_OPERAND`, code 4. -/
def Obligations.BadOperandsRecorded : Prop :=
  FaultCode.badOperand.code = 4#8 ∧
  ∀ s : State, s.tornDown = false →
    (∀ sel col row, (col < 0 ∨ (s.width : Int) ≤ col ∨ row < 0 ∨ (s.rows : Int) ≤ row) →
      exec (.decode sel col row) s = .next (s.raiseFault s.issuer .badOperand)) ∧
    ∀ (sel : Role) (off : U32), s.size ≤ off.toNat →
      exec (.readbyte sel off) s = .next (s.raiseFault s.issuer .badOperand)

/-- R100: `READBYTE` below `S` answers the raw byte of the named role's buffer; under the invariant its bits 7:6 are 0. -/
def Obligations.ReadbyteAnswersByte : Prop :=
  ∀ (s : State) (sel : Role) (off : U32), s.tornDown = false → off.toNat < s.size →
    exec (.readbyte sel off) s = .next (s.complete s.issuer ((s.readByte (s.roleBuf sel) off.toNat).setWidth 64)) ∧
    (s.Inv → (s.readByte (s.roleBuf sel) off.toNat).getLsbD 6 = false
      ∧ (s.readByte (s.roleBuf sel) off.toNat).getLsbD 7 = false)

/-! ### Swap -/

/-- R103, R104, R105, R107: `REQSWAP` and the later steps of its agent. That a held agent's turn leaves the block as it is
is the model's reading (log 9). -/
def Obligations.ReqswapSteps : Prop :=
  (∀ s : State, s.tornDown = false → exec .reqswap s = .next (s.setPhase s.issuer .swapPost)) ∧
  ∀ (s : State) (k : Nat) (a : HostAgent), s.hosts[k]? = some a →
    (a.hphase = .swapPost → s.swapPending = true → hostStep k s = .next s) ∧
    (a.hphase = .swapPost → s.swapPending = false →
      hostStep k s = .next { s with
        swapPending := true
        hosts := s.hosts.modify k (fun a => { a with g0 := s.swapGen, hphase := .swapWait }) }) ∧
    (a.hphase = .swapWait → s.swapGen = a.g0 → hostStep k s = .next s) ∧
    (a.hphase = .swapWait → s.swapGen ≠ a.g0 → hostStep k s = .next (s.complete k 0#64))

/-- R108, R129: S13 exchanges the roles exactly when `h = 0` and a swap is pending; no byte of either buffer changes, and
`SWAP_GEN` counts modulo 2^32. -/
def Obligations.SwapCheckExchanges : Prop :=
  ∀ s : State, s.phase = .s13 →
    (s.curH = 0#5 → s.swapPending = true →
      ∃ t, engineStep s = .next t ∧ t.front = !s.front ∧ t.swapPending = false
        ∧ t.swapGen.toNat = (s.swapGen.toNat + 1) % 2 ^ 32 ∧ t.phase = .s14
        ∧ { t with front := s.front, swapPending := s.swapPending, swapGen := s.swapGen, phase := s.phase } = s) ∧
    (¬ (s.curH = 0#5 ∧ s.swapPending = true) → engineStep s = .next { s with phase := .s14 })

/-- R102, R109: in every step of the block, `FRONT` and `SWAP_GEN` change together, only by the engine's S13 at half-row 0
with a swap pending; the bytes of both buffers stay. -/
def Obligations.FrontChangesOnlyAtFrameBoundary : Prop :=
  ∀ s t : State, step s = .next t → (t.front ≠ s.front ∨ t.swapGen ≠ s.swapGen) →
    s.nextAgent = .engine ∧ s.phase = .s13 ∧ s.curH = 0#5 ∧ s.swapPending = true ∧ t.swapPending = false
      ∧ t.front = (!s.front) ∧ t.swapGen = s.swapGen + 1#32 ∧ t.buf0 = s.buf0 ∧ t.buf1 = s.buf1

/-- R110, R194: after the exchange, `DECODE front` answers what `DECODE back` answered before it, at every coordinate, and
`DECODE back` what `DECODE front` answered. -/
def Obligations.ExchangeShowsBackBuffer : Prop :=
  ∀ s : State, s.tornDown = false → s.phase = .s13 → s.curH = 0#5 → s.swapPending = true →
    ∃ t, engineStep s = .next t ∧
      ∀ col row, s.inBounds col row = true →
        ∃ x y : Rgb,
          exec (.decode .back col row) s = .next (s.complete s.issuer x.word) ∧
          exec (.decode .front col row) t = .next (t.complete t.issuer x.word) ∧
          exec (.decode .front col row) s = .next (s.complete s.issuer y.word) ∧
          exec (.decode .back col row) t = .next (t.complete t.issuer y.word)

/-! ### The scan engine -/

/-- R116 (C1, C2): with the tables of construction, the colour mask of a byte is its low six bits. -/
def Obligations.ColorMaskIsLowBits : Prop :=
  ∀ (s : State) (v : Byte), s.TablesOk → s.colorMask v = (v &&& 0x3F#8).setWidth 14

/-- R117: S1 latches `BASE_NS`, asserts `OE` in one transaction, and starts an armed measurement at a clock read. -/
def Obligations.BlankStep : Prop :=
  ∀ s : State, s.phase = .s1 →
    (s.measureArmed = false →
      engineStep s = .next { s with
        latB := s.baseNs, phase := .s2, out := s.out ||| 0x2000#14, trace := ⟨0x2000#14, 0#14, s.out⟩ :: s.trace }) ∧
    (s.measureArmed = true →
      engineStep s = .next { s with
        latB := s.baseNs, phase := .s2, out := s.out ||| 0x2000#14, trace := ⟨0x2000#14, 0#14, s.out⟩ :: s.trace
        measActive := true, measureArmed := false, tm0 := s.clockValue
        clockLast := s.clockValue, clockDraws := s.clockDraws.tail, clockReads := s.clockReads + 1 })

/-- R114, R118, R119: S2 and S3 set the address lines to `h` in two transactions and reset the plane and column cursors;
no other line changes. That the lines equal `h` exactly is the spec's own inference ('After S3 the address lines equal `h`
exactly', R119), and rests on the unused lines being 0 (R35). -/
def Obligations.AddressSteps : Prop :=
  ∀ s : State, s.Inv → s.phase = .s2 →
    let row := BitVec.ofNat 14 s.curH.toNat <<< 6
    engineRun 2 s = .next { s with
      phase := .s4, curI := 0#3, curC := 0#15
      out := (s.out &&& ~~~ 0x07C0#14) ||| row
      trace := ⟨0#14, addrGroup s.hr &&& ~~~ row, s.out ||| row⟩ :: ⟨row, 0#14, s.out⟩ :: s.trace }

/-- R116, R120: S4 puts the front buffer's lanes of the column on the colour lines in one transaction; no other line
changes. That the mask is the byte's low six bits is the spec's own inference ('`colorMask(v) = v & 0x3F`', R116). -/
def Obligations.ColorStep : Prop :=
  ∀ s : State, s.Inv → s.phase = .s4 →
    let m := (s.readByte s.front (8 * s.curC.toNat + 8 * s.curH.toNat * s.width + s.curI.toNat)
      &&& 0x3F#8).setWidth 14
    engineStep s = .next { s with
      phase := .s5
      out := (s.out &&& ~~~ 0x003F#14) ||| m
      trace := ⟨m, 0x003F#14 &&& ~~~ m, s.out⟩ :: s.trace }

/-- R121, R122: S5 and S6 pulse `CLK` in two transactions and advance the column, or end the plane after the last one. -/
def Obligations.ShiftClockSteps : Prop :=
  ∀ s : State, s.Inv → s.phase = .s5 →
    ∃ t, engineRun 2 s = .next t
      ∧ t.curC.toNat = (if s.curC.toNat < s.width - 1 then s.curC.toNat + 1 else 0)
      ∧ t.phase = (if s.curC.toNat < s.width - 1 then .s4 else .s7)
      ∧ t.out = s.out &&& ~~~ 0x0800#14
      ∧ t.trace = ⟨0#14, 0x0800#14, s.out ||| 0x0800#14⟩ :: ⟨0x0800#14, 0#14, s.out⟩ :: s.trace
      ∧ { t with curC := s.curC, phase := s.phase, out := s.out, trace := s.trace } = s

/-- R123 to R125: S7 asserts `OE` and `LAT` in one transaction, S8 clears `LAT`, S9 clears `OE`. The last clause, that the
colour lines, the address lines and `CLK` do not change, is for the colour lines and `CLK` the spec's own inference in its
latch order rule (R191). -/
def Obligations.LatchSteps : Prop :=
  ∀ s : State,
    (s.phase = .s7 → engineStep s = .next { s with
      phase := .s8, out := s.out ||| 0x3000#14, trace := ⟨0x3000#14, 0#14, s.out⟩ :: s.trace }) ∧
    (s.phase = .s8 → engineStep s = .next { s with
      phase := .s9, out := s.out &&& ~~~ 0x1000#14, trace := ⟨0#14, 0x1000#14, s.out⟩ :: s.trace }) ∧
    (s.phase = .s9 → engineStep s = .next { s with
      phase := .s10, out := s.out &&& ~~~ 0x2000#14, trace := ⟨0#14, 0x2000#14, s.out⟩ :: s.trace }) ∧
    ∀ t, (s.phase = .s7 ∨ s.phase = .s8 ∨ s.phase = .s9) → engineStep s = .next t →
      t.out &&& 0x0FFF#14 = s.out &&& 0x0FFF#14

/-- R126, R127: a hold starts at a clock read and ends at the first poll that is at least `t0 + B * 2^i`; until then the
engine stays in S11, then it goes on to S4 of the next plane with `c = 0`, or to S12 after plane 7. -/
def Obligations.HoldSteps : Prop :=
  ∀ s : State,
    let polled := { s with
      clockLast := s.clockValue, clockDraws := s.clockDraws.tail, clockReads := s.clockReads + 1 }
    (s.phase = .s10 → engineStep s = .next { polled with t0 := s.clockValue, phase := .s11 }) ∧
    (s.phase = .s11 → s.clockValue.toNat < s.t0.toNat + s.latB.toNat * 2 ^ s.curI.toNat →
      engineStep s = .next polled) ∧
    (s.phase = .s11 → s.t0.toNat + s.latB.toNat * 2 ^ s.curI.toNat ≤ s.clockValue.toNat → s.curI.toNat < 7 →
      ∃ t, engineStep s = .next t ∧ t.curI.toNat = s.curI.toNat + 1 ∧ t = { polled with curI := t.curI, phase := .s4 }
        ∧ (s.CursorsOk → t.curC = 0#15)) ∧
    (s.phase = .s11 → s.t0.toNat + s.latB.toNat * 2 ^ s.curI.toNat ≤ s.clockValue.toNat → s.curI.toNat = 7 →
      engineStep s = .next { polled with phase := .s12 })

/-- R128: S12 advances the half-row cursor modulo `H` and writes nothing else but the phase. -/
def Obligations.AdvanceStep : Prop :=
  ∀ s : State, s.GeometryOk → s.phase = .s12 →
    ∃ t, engineStep s = .next t ∧ t.curH.toNat = (s.curH.toNat + 1) % s.hr ∧ t.phase = .s13
      ∧ { t with curH := s.curH, phase := s.phase } = s

/-- R130, R131: S14 ends a measurement with the clock difference, S15 goes on or parks; nothing else changes, so the last
plane stays on the lines. -/
def Obligations.EndOfCycleSteps : Prop :=
  ∀ s : State,
    (s.phase = .s14 → s.measActive = false → engineStep s = .next { s with phase := .s15 }) ∧
    (s.phase = .s14 → s.measActive = true → s.ClockOk →
      ∃ t, engineStep s = .next t ∧ t.frameTimeNs.toNat = s.clockValue.toNat - s.tm0.toNat
        ∧ t = { s with
          phase := .s15, frameTimeNs := t.frameTimeNs, frameTimeValid := true, measActive := false
          clockLast := s.clockValue, clockDraws := s.clockDraws.tail, clockReads := s.clockReads + 1 }) ∧
    (s.phase = .s15 → s.running = true → engineStep s = .next { s with phase := .s1 }) ∧
    (s.phase = .s15 → s.running = false → engineStep s = .next { s with parked := true, phase := .idle })

/-- R132: while the engine is not `IDLE` no host agent changes its phase or cursors, and the engine's phases follow each
other in the order S1 to S15, so it becomes `IDLE` only from S15. -/
def Obligations.NoMidCycleAbort : Prop :=
  (∀ (s t : State) (k : Nat), s.FlagsOk → s.phase ≠ .idle → hostStep k s = .next t →
    t.phase = s.phase ∧ t.curH = s.curH ∧ t.curI = s.curI ∧ t.curC = s.curC) ∧
  ∀ s t : State, engineStep s = .next t → t.phase ∈ s.phase.next

/-- R55, R113, R133: each micro-step of a cycle makes the transactions its place in the cycle says, at most one; the whole
cycle makes `24 * WIDTH + 27`. -/
def Obligations.CycleTransactionCount : Prop :=
  (∀ s t : State, s.Inv → engineStep s = .next t → s.phase ≠ .s15 →
    t.trace.length + s.cycleTx = s.trace.length + t.cycleTx ∧ t.trace.length ≤ s.trace.length + 1
      ∧ t.clockReads ≤ s.clockReads + 1) ∧
  ∀ s : State, (s.phase = .s1 → s.cycleTx = 0) ∧ (s.phase = .s15 → s.cycleTx = 3 + 8 * (3 * s.width + 3))

/-- R190: the address lines change only in S2 and S3, with `OE` asserted before and after; `OE` stays asserted from S1 to
the S9 of plane 0. -/
def Obligations.BlankBeforeReaddress : Prop :=
  ∀ s : State, s.Inv →
    (∀ t, step s = .next t → t.addrLinesOut ≠ s.addrLinesOut →
      s.nextAgent = .engine ∧ (s.phase = .s2 ∨ s.phase = .s3)
        ∧ s.out.getLsbD 13 = true ∧ t.out.getLsbD 13 = true) ∧
    ((s.phase = .s2 ∨ s.phase = .s3) → s.out.getLsbD 13 = true) ∧
    (s.curI = 0#3 → (s.phase = .s4 ∨ s.phase = .s5 ∨ s.phase = .s6 ∨ s.phase = .s7 ∨ s.phase = .s8 ∨ s.phase = .s9) →
      s.out.getLsbD 13 = true)

/-- R35, R37, R49, R150(c), R184: only the engine makes transactions, and none once the block is disposed; address lines
beyond the first `NADDR` are neither acquired nor set, and after the release no line is driven and the display is the
platform's (log 13). -/
def Obligations.NoTransactionAfterRelease : Prop :=
  ∀ s t : State, s.Inv → step s = .next t →
    (t.trace ≠ s.trace → s.nextAgent = .engine ∧ s.disposed = false ∧ s.linesHeld = true) ∧
    (∀ k, 6 + addrLines s.hr ≤ k → k < 11 → t.pinLevel k = none ∧ t.out.getLsbD k = false) ∧
    (∀ k p, t.disposed = false → s.pinmap[k]? = some p →
      (k < 6 + addrLines s.hr ∨ (11 ≤ k ∧ k < 14)) → t.pinLevel k = some (p.line, t.out.getLsbD k != p.activeLow)) ∧
    (s.disposed = true → t.out = s.out ∧ t.trace = s.trace ∧ t.phase = .idle ∧ t.disposed = true) ∧
    (t.disposed = true → t.shown = .platform ∧ ∀ k, t.pinLevel k = none)

/-- R136, R137, R139: the reference observer keeps up with the engine: the columns shifted so far, then the latched plane,
are those of the front buffer. -/
def Obligations.ObserverKeepsUp : Prop :=
  ∀ s t : State, s.Inv → s.DisplayOk → step s = .next t → t.DisplayOk

/-- R138, R139, R196: from the S9 of a plane the observer shows rows `h` and `h + H` with that plane of the front buffer,
while it is held and while the next plane is shifted in; and no step but the engine's S1, S7 and S9 and the release changes
what is shown, so the plane stays until the next S7 or S1, plane 7 past S12, over an exchange and after a stop too. -/
def Obligations.HeldPlaneIsShown : Prop :=
  (∀ s : State, s.Inv → s.DisplayOk →
    let shows := fun i => s.shown =
      .rows ⟨s.curH.toNat, s.curH.toNat + s.hr, some (s.frontColumns i s.width)⟩
    ((s.phase = .s10 ∨ s.phase = .s11 ∨ s.phase = .s12) → shows s.curI.toNat) ∧
    ((s.phase = .s4 ∨ s.phase = .s5 ∨ s.phase = .s6 ∨ s.phase = .s7) → s.curI ≠ 0#3 → shows (s.curI.toNat - 1)) ∧
    ((s.phase = .s2 ∨ s.phase = .s3) → s.shown = .dark)) ∧
  ∀ s t : State, s.Inv → step s = .next t → t.linesHeld = s.linesHeld →
    ¬ (s.nextAgent = .engine ∧ (s.phase = .s1 ∨ s.phase = .s7 ∨ s.phase = .s9)) → t.shown = s.shown

/-- R130, R134: in a measured cycle the clock has advanced at least by the holds that are over. -/
def Obligations.MeasuredCycleBound : Prop :=
  ∀ s t : State, s.Inv → s.MeasureOk → step s = .next t → t.MeasureOk

/-- R154: a measured frame time is at least `255 * B`, the sum of the eight holds' lower bounds. -/
def Obligations.FrameTimeLowerBound : Prop :=
  ∀ s t : State, s.Inv → s.MeasureOk → s.phase = .s14 → s.measActive = true → engineStep s = .next t →
    255 * s.latB.toNat ≤ t.frameTimeNs.toNat ∧ t.frameTimeValid = true

/-- R41: the clock never decreases over any step, a poll returns at least every earlier read, and the clock grows without
bound, so a hold whose deadline the count can reach ends. The form of the draws is the model's (log 6). -/
def Obligations.ClockNeverDecreases : Prop :=
  ∀ s : State, s.clockLast.toNat ≤ s.clockValue.toNat ∧
    (∀ t, step s = .next t → s.clockLast.toNat ≤ t.clockLast.toNat) ∧
    (∀ v : Word, ∃ n, v.toNat ≤ (s.clockAfter n).clockValue.toNat) ∧
    (s.phase = .s11 → s.t0.toNat + s.latB.toNat * 2 ^ s.curI.toNat < 2 ^ 64 →
      ∃ n t, engineRun n s = .next t ∧ t.phase ≠ .s11)

/-- R131, R135: with `RUNNING = 0` an engine in a cycle, S1 of a further one included, is parked after exactly the
micro-steps that remain of the cycle, not counting the polls that do not end their hold, and not before; and with a latched
base of 0 (every hold ends at its first poll, R127) it parks in just that many turns. -/
def Obligations.StoppingEngineParks : Prop :=
  ∀ s : State, s.Inv → s.running = false → s.phase ≠ .idle →
    (∀ n t, engineRun n s = .next t →
      (t.phase = .idle ↔ 24 * s.width + 47 ≤ s.cyclePos + (n - heldPolls n s)) ∧ (t.parked = true ↔ t.phase = .idle)) ∧
    (s.phase ≠ .s1 → s.latB = 0#32 →
      ∃ t, engineRun (24 * s.width + 47 - s.cyclePos) s = .next t ∧ t.phase = .idle ∧ t.parked = true)

/-! ### Lifecycle -/

/-- R141 to R143: `START` from Stopped and while Stopping, and the steps of `START_WAIT`. That a held agent's turn leaves
the block as it is is the model's reading (log 9). -/
def Obligations.StartSteps : Prop :=
  (∀ s : State, s.tornDown = false →
    (s.running = false → s.parked = true →
      exec .start s = .next ({ s with
        running := true, parked := false, curH := 0#5, curI := 0#3, curC := 0#15, phase := .s1 }.complete s.issuer 0#64)) ∧
    (s.running = false → s.parked = false → exec .start s = .next (s.setPhase s.issuer .startWait))) ∧
  ∀ (s : State) (k : Nat) (a : HostAgent), s.hosts[k]? = some a → a.hphase = .startWait →
    (s.disposing = true → hostStep k s = .next (s.raiseFault k .useAfterDispose)) ∧
    (s.disposing = false → s.isStopping = true → hostStep k s = .next s) ∧
    (s.disposing = false → s.running = true → hostStep k s = .next (s.complete k 0#64)) ∧
    (s.disposing = false → s.running = false → s.parked = true →
      hostStep k s = .next ({ s with
        running := true, parked := false, curH := 0#5, curI := 0#3, curC := 0#15, phase := .s1 }.complete k 0#64))

/-- R142: `START` while Running changes nothing and raises no fault; a second `START` right after a first changes nothing
more. -/
def Obligations.StartIsIdempotent : Prop :=
  ∀ s : State, s.tornDown = false →
    (s.running = true → exec .start s = .next (s.complete s.issuer 0#64)) ∧
    (s.running = true ∨ s.parked = true → execAll [.start, .start] s = exec .start s)

/-- R144, R163: `STOP` clears `RUNNING`, answers at once, and changes nothing else. -/
def Obligations.StopClearsRunning : Prop :=
  ∀ s : State, s.tornDown = false →
    exec .stop s = .next ({ s with running := false }.complete s.issuer 0#64) ∧
    (s.running = false → exec .stop s = .next (s.complete s.issuer 0#64))

/-- R145 to R148: the steps of `DISPOSE`. That a held agent's turn leaves the block as it is is the model's reading
(log 9). -/
def Obligations.DisposeSteps : Prop :=
  (∀ s : State,
    (s.disposed = true → exec .dispose s = .next (s.complete s.issuer 0#64)) ∧
    (s.disposed = false → s.disposing = true → exec .dispose s = .next (s.setPhase s.issuer .dispWaitOther)) ∧
    (s.disposed = false → s.disposing = false →
      exec .dispose s = .next ({ s with disposing := true, running := false }.setPhase s.issuer .dispWaitPark))) ∧
  ∀ (s : State) (k : Nat) (a : HostAgent), s.hosts[k]? = some a →
    (a.hphase = .dispWaitPark → s.parked = false → hostStep k s = .next s) ∧
    (a.hphase = .dispWaitPark → s.parked = true → hostStep k s = .next (s.setPhase k .dispRelease)) ∧
    (a.hphase = .dispRelease →
      hostStep k s = .next ({ s with linesHeld := false, disposed := true }.complete k 0#64)) ∧
    (a.hphase = .dispWaitOther → s.disposed = false → hostStep k s = .next s) ∧
    (a.hphase = .dispWaitOther → s.disposed = true → hostStep k s = .next (s.complete k 0#64))

/-- R147, R166(3), R167: once teardown has begun, every command but `DISPOSE` and `GETSTATUS` records `USE_AFTER_DISPOSE`,
code 3, whatever its operands, and has no other effect. -/
def Obligations.TornDownRaisesUseAfterDispose : Prop :=
  FaultCode.useAfterDispose.code = 3#8 ∧
  ∀ (s : State) (i : Instr), s.tornDown = true → i ≠ .dispose → i ≠ .getstatus →
    exec i s = .next (s.raiseFault s.issuer .useAfterDispose)

/-- R165: a recorded fault keeps the first code, answers 0, makes the agent READY, and changes nothing else; no step of the
machine ever clears it. -/
def Obligations.FaultKeepsFirstCode : Prop :=
  (∀ (s : State) (k : Nat) (c : FaultCode) (a : HostAgent), s.hosts[k]? = some a →
    (s.raiseFault k c).fault = (if s.fault = 0#8 then c.code else s.fault) ∧
    (s.raiseFault k c).hosts[k]? = some { a with hphase := .ready, resp := some 0#64 } ∧
    (∀ j, j ≠ k → (s.raiseFault k c).hosts[j]? = s.hosts[j]?) ∧
    { s.raiseFault k c with fault := s.fault, hosts := s.hosts } = s) ∧
  ∀ s t : State, step s = .next t → s.fault ≠ 0#8 → t.fault = s.fault

/-- R150(b), R145 to R147: a `DISPOSE` whose engine has parked completes in two more steps of its agent, and releases the
lines. -/
def Obligations.ParkedDisposeCompletes : Prop :=
  ∀ (s : State) (k : Nat) (a : HostAgent),
    s.hosts[k]? = some a → a.hphase = .dispWaitPark → s.parked = true →
    ∃ t u, hostStep k s = .next t ∧ hostStep k t = .next u ∧ u.disposed = true ∧ u.linesHeld = false
      ∧ u.respOf k = some 0#64 ∧ u.phaseOf k = some .ready ∧ u.fault = s.fault

/-! ### Configuration and queries -/

/-- R151, R153: `SETBASE` and `MEASURE` write their one register; a running cycle's latched `B` stays. -/
def Obligations.ConfigurationCommands : Prop :=
  ∀ s : State, s.tornDown = false →
    (∀ ns, exec (.setbase ns) s = .next ({ s with baseNs := ns }.complete s.issuer 0#64)) ∧
    exec .measure s = .next ({ s with measureArmed := true }.complete s.issuer 0#64) ∧
    ∀ ns, execAll [.setbase ns, .getbase] s =
      .next ({ s with baseNs := ns }.complete s.issuer (ns.setWidth 64))

/-- R152, R154 to R156: the query commands answer their register or parameter and change nothing but the response. -/
def Obligations.QueryCommands : Prop :=
  ∀ s : State, s.tornDown = false →
    exec .getbase s = .next (s.complete s.issuer (s.baseNs.setWidth 64)) ∧
    exec .getframetime s = .next (s.complete s.issuer s.frameTimeNs) ∧
    exec .getwidth s = .next (s.complete s.issuer (BitVec.ofNat 64 s.width)) ∧
    exec .getheight s = .next (s.complete s.issuer (BitVec.ofNat 64 s.rows))

/-- R33, R157: `GETSTATUS` runs in every state and answers the status word, whose every field is where R33 puts it. -/
def Obligations.StatusWordFields : Prop :=
  ∀ s : State,
    exec .getstatus s = .next (s.complete s.issuer s.statusWord) ∧
    s.statusWord.getLsbD 0 = s.running ∧ s.statusWord.getLsbD 1 = s.parked ∧ s.statusWord.getLsbD 2 = s.swapPending ∧
    s.statusWord.getLsbD 3 = s.disposing ∧ s.statusWord.getLsbD 4 = s.disposed ∧
    s.statusWord.getLsbD 5 = s.measureArmed ∧ s.statusWord.getLsbD 6 = s.frameTimeValid ∧
    s.statusWord.getLsbD 7 = s.front ∧ s.statusWord.extractLsb' 8 8 = s.fault ∧
    s.statusWord.extractLsb' 16 5 = s.curH ∧ s.statusWord.extractLsb' 21 3 = s.curI ∧
    s.statusWord.extractLsb' 24 8 = 0#8 ∧ s.statusWord.extractLsb' 32 32 = s.swapGen ∧
    ∀ p : Params, (State.fresh p).statusWord = 0x0000000000000002#64

/-- R56, R82, R166: each of the getters, `DECODE` and `READBYTE` either records `USE_AFTER_DISPOSE`, exactly when teardown
has begun and it is not `GETSTATUS`, or else `BAD_OPERAND`, exactly when its operand is out of range, or else only answers;
and an answer changes nothing but the issuer's phase and response. -/
def Obligations.ReadsHaveNoSideEffect : Prop :=
  (∀ (s : State) (i : Instr), readsOnly i = true →
    (i ≠ .getstatus → s.tornDown = true → exec i s = .next (s.raiseFault s.issuer .useAfterDispose)) ∧
    ((i = .getstatus ∨ s.tornDown = false) →
      (s.operandBad i = true → exec i s = .next (s.raiseFault s.issuer .badOperand)) ∧
      (s.operandBad i = false → ∃ v, exec i s = .next (s.complete s.issuer v)))) ∧
  ∀ (s : State) (k : Nat) (v : Word) (a : HostAgent), s.hosts[k]? = some a →
    (s.complete k v).hosts[k]? = some { a with hphase := .ready, resp := some v } ∧
    (∀ j, j ≠ k → (s.complete k v).hosts[j]? = s.hosts[j]?) ∧
    { s.complete k v with hosts := s.hosts } = s

/-! ### Construction and the whole machine -/

/-- R183, R184, R186, R187: construction succeeds exactly with a legal geometry and acquired lines, and then gives the
state of R42, value by value, which meets the invariant when the parameters are legal. That no other parameter is checked is
the model's reading (log 18). -/
def Obligations.ConstructionOutcomes : Prop :=
  ∀ p : Params,
    (geometryOk p.width p.rows = false → ∀ ok, State.construct p ok = .error .badGeometry) ∧
    (geometryOk p.width p.rows = true → State.construct p false = .error .linesNotAcquired) ∧
    (geometryOk p.width p.rows = true →
      ∃ s, State.construct p true = .ok s ∧
        s.width = p.width ∧ s.rows = p.rows ∧ s.pinmap = p.pinmap ∧ s.gamma = p.gamma ∧
        s.rowaddr.length = p.rows / 2 ∧
        (∀ h, h < p.rows / 2 → s.rowaddr[h]? = some (BitVec.ofNat 14 h <<< 6)) ∧
        (∀ (q : Nat) (hq : q < 8), s.cmt[q] = BitVec.ofNat 14 q ∧ s.cmt[8 + q] = BitVec.ofNat 14 q <<< 3) ∧
        (∀ b off, s.readByte b off = 0#8) ∧ s.front = false ∧ s.running = false ∧ s.parked = true ∧
        s.swapPending = false ∧ s.swapGen = 0#32 ∧ s.disposing = false ∧ s.disposed = false ∧ s.fault = 0#8 ∧
        s.baseNs = p.baseResetNs ∧ s.measureArmed = false ∧ s.frameTimeNs = 0#64 ∧ s.frameTimeValid = false ∧
        s.out = p.outReset ∧ s.linesHeld = true ∧ s.phase = .idle ∧ s.curH = 0#5 ∧ s.curI = 0#3 ∧ s.curC = 0#15 ∧
        s.latB = 0#32 ∧ s.t0 = 0#64 ∧ s.tm0 = 0#64 ∧ s.measActive = false ∧ s.hosts.length = p.numHosts ∧
        (∀ a ∈ s.hosts, a.hphase = .ready ∧ a.g0 = 0#32) ∧
        (paramsLegal p = true → s.Inv ∧ s.MeasureOk))

/-- R42 at the instance of `State.reset` (log 1, DESIGN CHOICE): its free parameters are legal, so the reset state meets
the invariant. -/
def Obligations.ResetMeetsInvariant : Prop := paramsLegal Config.panel = true ∧ State.reset.Inv

/-- Every step keeps the invariant: canonical buffers inside `[0, S)` with bits 7:6 zero (R22, R53), cursors in range
(R38), the scheduler and teardown flags (R26, R39), one teardown (R148), a pending swap's waiting poster (R107), `OE`
and the address lines as the phase says (R190). -/
def Obligations.StepKeepsInvariant : Prop :=
  ∀ s t : State, s.Inv → step s = .next t → t.Inv

/-- R11, R160: from every state that meets the invariant, any number of steps gives a next state: no agent's step stops
the block. -/
def Obligations.NoRunStops : Prop :=
  ∀ (s : State) (n : Nat), s.Inv → ∃ t, Host.Core.run Sys2Proof.core n s = .next t ∧ t.Inv
end

