-- ==== Sys2Proof/Laws/Memory.lean ====
section
/-! SUPPORT. The laws of a buffer's bytes: what a read gives after a write, that every operation keeps the canonical
form, that canonical buffers with the same bytes are equal, and what the two bulk writes of the pixel encoder do. -/

namespace Sys2Proof.Machine

/-! ### The canonical form -/

theorem Memory.wfFrom_mono {lo lo' : Nat} (h : lo' ≤ lo) {m : Memory} (hm : Memory.wfFrom lo m = true) :
    Memory.wfFrom lo' m = true := by
  cases m with
  | nil => rfl
  | cons cell rest =>
    obtain ⟨a, v⟩ := cell
    simp only [Memory.wfFrom, Bool.and_eq_true, decide_eq_true_eq] at hm ⊢
    exact ⟨⟨by omega, hm.1.2⟩, hm.2⟩

/-- Below the first offset a canonical list may hold, every byte reads 0. -/
theorem Memory.read_below {lo : Nat} {m : Memory} (hm : Memory.wfFrom lo m = true) {a : Nat} (ha : a < lo) :
    m.read a = Memory.unlisted := by
  induction m generalizing lo with
  | nil => rfl
  | cons cell rest ih =>
    obtain ⟨b, v⟩ := cell
    simp only [Memory.wfFrom, Bool.and_eq_true, decide_eq_true_eq] at hm
    have hb : a ≠ b := by omega
    simp only [Memory.read, hb, if_false]
    exact ih hm.2 (by omega)

theorem Memory.write_wfFrom {lo a : Nat} {m : Memory} {v : Byte} (hm : Memory.wfFrom lo m = true) (ha : lo ≤ a) :
    Memory.wfFrom lo (m.write a v) = true := by
  induction m generalizing lo with
  | nil =>
    simp only [Memory.write]
    split <;> simp_all [Memory.wfFrom]
  | cons cell rest ih =>
    obtain ⟨b, x⟩ := cell
    simp only [Memory.wfFrom, Bool.and_eq_true, decide_eq_true_eq] at hm
    obtain ⟨⟨hlo, hx⟩, hrest⟩ := hm
    simp only [Memory.write]
    split_ifs with h1 h2 h3 h4
    · simp [Memory.wfFrom, hlo, hx, hrest]
    · have hb : Memory.wfFrom (a + 1) ((b, x) :: rest) = true := by
        simp only [Memory.wfFrom, Bool.and_eq_true, decide_eq_true_eq]
        exact ⟨⟨by omega, hx⟩, hrest⟩
      simp only [Memory.wfFrom, Bool.and_eq_true, decide_eq_true_eq] at hb ⊢
      exact ⟨⟨ha, h2⟩, hb⟩
    · exact Memory.wfFrom_mono (by omega) hrest
    · subst h3
      simp only [Memory.wfFrom, Bool.and_eq_true, decide_eq_true_eq]
      exact ⟨⟨ha, h4⟩, hrest⟩
    · simp only [Memory.wfFrom, Bool.and_eq_true, decide_eq_true_eq]
      exact ⟨⟨hlo, hx⟩, ih hrest (by omega)⟩

/-- A write keeps the canonical form. -/
theorem Memory.write_wf {m : Memory} (hm : m.wf = true) (a : Nat) (v : Byte) : (m.write a v).wf = true :=
  Memory.write_wfFrom hm (Nat.zero_le a)

/-- A write inside `[0, size)` keeps every listed byte there. -/
theorem Memory.write_within {size a : Nat} {m : Memory} {v : Byte} (hm : m.within size = true) (ha : a < size) :
    (m.write a v).within size = true := by
  induction m with
  | nil =>
    simp only [Memory.write]
    split <;> simp_all [Memory.within]
  | cons cell rest ih =>
    obtain ⟨b, x⟩ := cell
    simp only [Memory.within, List.all_cons, Bool.and_eq_true, decide_eq_true_eq] at hm ih
    obtain ⟨hb, hrest⟩ := hm
    simp only [Memory.write]
    split_ifs <;>
      simp only [Memory.within, List.all_cons, Bool.and_eq_true, decide_eq_true_eq] <;>
      first
        | exact ⟨hb, ih hrest⟩
        | exact ⟨ha, hb, hrest⟩
        | exact ⟨ha, hrest⟩
        | exact ⟨hb, hrest⟩
        | exact hrest

/-! ### Reads after a write -/

theorem Memory.read_write_from {lo a b : Nat} {m : Memory} {v : Byte} (hm : Memory.wfFrom lo m = true) :
    (m.write a v).read b = if b = a then v else m.read b := by
  induction m generalizing lo with
  | nil =>
    simp only [Memory.write]
    split_ifs <;> simp_all [Memory.read]
  | cons cell rest ih =>
    obtain ⟨c, x⟩ := cell
    simp only [Memory.wfFrom, Bool.and_eq_true, decide_eq_true_eq] at hm
    have hrest := hm.2
    have below : ∀ d, d ≤ c → Memory.read rest d = Memory.unlisted :=
      fun d hd => Memory.read_below hrest (by omega)
    by_cases hac : a < c
    · by_cases hv : v = Memory.unlisted <;> by_cases hb : b = a
      · have hne : b ≠ c := by omega
        simp [Memory.write, Memory.read, hac, hv, hb, hb ▸ hne, below a (by omega)]
      · simp [Memory.write, Memory.read, hac, hv, hb]
      · simp [Memory.write, Memory.read, hac, hv, hb]
      · simp [Memory.write, Memory.read, hac, hv, hb]
    · by_cases hac' : a = c
      · by_cases hv : v = Memory.unlisted <;> by_cases hb : b = a
        · simp [Memory.write, hac', hv, hb, below c (by omega)]
        · have hne : b ≠ c := by omega
          simp [Memory.write, Memory.read, hac', hv, hne]
        · simp [Memory.write, Memory.read, hac', hv, hb]
        · have hne : b ≠ c := by omega
          simp [Memory.write, Memory.read, hac', hv, hne]
      · simp only [Memory.write, hac, hac', if_false, Memory.read, ih hrest]
        by_cases hb : b = c
        · have hne : b ≠ a := by omega
          simp [hb, hb ▸ hne]
        · simp [hb]

/-- A read after a write: the value written there, and every other byte as before. -/
theorem Memory.read_write {m : Memory} (hm : m.wf = true) (a b : Nat) (v : Byte) :
    (m.write a v).read b = if b = a then v else m.read b := Memory.read_write_from hm

/-- Every byte outside `[0, size)` of a buffer that lies there reads 0. -/
theorem Memory.read_outside {size a : Nat} {m : Memory} (hm : m.within size = true) (ha : size ≤ a) :
    m.read a = Memory.unlisted := by
  induction m with
  | nil => rfl
  | cons cell rest ih =>
    obtain ⟨b, v⟩ := cell
    simp only [Memory.within, List.all_cons, Bool.and_eq_true, decide_eq_true_eq] at hm
    have hb : a ≠ b := by omega
    simp only [Memory.read, hb, if_false]
    exact ih hm.2

/-! ### Equal bytes, equal buffers -/

theorem Memory.ext_from {lo : Nat} {m n : Memory} (hm : Memory.wfFrom lo m = true) (hn : Memory.wfFrom lo n = true)
    (h : ∀ a, m.read a = n.read a) : m = n := by
  induction m generalizing lo n with
  | nil =>
    cases n with
    | nil => rfl
    | cons cell rest =>
      obtain ⟨b, v⟩ := cell
      simp only [Memory.wfFrom, Bool.and_eq_true, decide_eq_true_eq] at hn
      have := h b
      simp only [Memory.read, if_true] at this
      exact absurd this.symm hn.1.2
  | cons cell rest ih =>
    obtain ⟨a, v⟩ := cell
    have hm' := hm
    simp only [Memory.wfFrom, Bool.and_eq_true, decide_eq_true_eq] at hm'
    obtain ⟨⟨_, hv⟩, hrest⟩ := hm'
    cases n with
    | nil =>
      have := h a
      simp only [Memory.read, if_true] at this
      exact absurd this hv
    | cons cell' rest' =>
      obtain ⟨b, w⟩ := cell'
      have hn' := hn
      simp only [Memory.wfFrom, Bool.and_eq_true, decide_eq_true_eq] at hn'
      obtain ⟨⟨_, hw⟩, hrest'⟩ := hn'
      have hab : a = b := by
        rcases Nat.lt_trichotomy a b with hlt | heq | hgt
        · have := h a
          have hne : a ≠ b := by omega
          simp only [Memory.read, if_true, hne, if_false] at this
          exact absurd (this.trans (Memory.read_below hrest' (by omega))) hv
        · exact heq
        · have := h b
          have hne : b ≠ a := by omega
          simp only [Memory.read, if_true, hne, if_false] at this
          exact absurd (this.symm.trans (Memory.read_below hrest (by omega))) hw
      subst hab
      have hvw : v = w := by have := h a; simpa only [Memory.read, if_true] using this
      subst hvw
      have : rest = rest' := by
        refine ih hrest hrest' (fun d => ?_)
        by_cases hd : d = a
        · subst hd
          rw [Memory.read_below hrest (by omega), Memory.read_below hrest' (by omega)]
        · have := h d
          simpa only [Memory.read, hd, if_false] using this
      rw [this]

/-- Two canonical buffers that read alike everywhere are the same list. -/
theorem Memory.ext_read {m n : Memory} (hm : m.wf = true) (hn : n.wf = true) (h : ∀ a, m.read a = n.read a) : m = n :=
  Memory.ext_from hm hn h

/-! ### The bulk writes -/

/-- Read-modify-writes of `n` different bytes, in any one order: each byte is written from its own old value. -/
theorem Memory.foldr_write_spec (f : Nat → Byte → Byte) (base n : Nat) (m : Memory) (hm : m.wf = true) :
    ((List.range n).foldr (fun i m => Memory.write m (base + i) (f i (Memory.read m (base + i)))) m).wf = true ∧
    ∀ a, ((List.range n).foldr (fun i m => Memory.write m (base + i) (f i (Memory.read m (base + i)))) m).read a =
      if base ≤ a ∧ a < base + n then f (a - base) (m.read a) else m.read a := by
  induction n generalizing m with
  | zero => exact ⟨hm, fun a => by simp⟩
  | succ n ih =>
    have hw : (Memory.write m (base + n) (f n (Memory.read m (base + n)))).wf = true := Memory.write_wf hm _ _
    obtain ⟨h1, h2⟩ := ih _ hw
    simp only [List.range_succ, List.foldr_append, List.foldr_cons, List.foldr_nil]
    refine ⟨h1, fun a => ?_⟩
    rw [h2 a, Memory.read_write hm]
    by_cases ha : a = base + n
    · subst ha
      simp
    · simp only [ha, if_false]
      congr 1
      simp only [eq_iff_iff]
      omega

/-- What `SETPIXEL`'s eight read-modify-writes do (R92): the canonical form stays, and exactly the bytes from `base` to
`base + 7` change, each by `put`. -/
theorem writePixel_spec (m : Memory) (hm : m.wf = true) (base : Nat) (upper : Bool) (gr gg gb : Byte) :
    (writePixel m base upper gr gg gb).wf = true ∧
    ∀ a, (writePixel m base upper gr gg gb).read a =
      if base ≤ a ∧ a < base + 8 then put (m.read a) upper (pat (a - base) gr gg gb) else m.read a :=
  Memory.foldr_write_spec (fun i v => put v upper (pat i gr gg gb)) base 8 m hm

/-- What `FILL`'s read-modify-writes do (R95): the canonical form stays, and exactly the bytes of `[0, size)` change,
each by `fillByte`. -/
theorem fillMemory_spec (m : Memory) (hm : m.wf = true) (size : Nat) (gr gg gb : Byte) :
    (fillMemory m size gr gg gb).wf = true ∧
    ∀ a, (fillMemory m size gr gg gb).read a =
      if a < size then fillByte (m.read a) (pat (a % 8) gr gg gb) else m.read a := by
  have h := Memory.foldr_write_spec (fun i v => fillByte v (pat (i % 8) gr gg gb)) 0 size m hm
  simpa [fillMemory] using h

end Sys2Proof.Machine
end

