-- ==== Sys2Proof/Laws/State.lean ====
section
/-! SUPPORT. For every named update of the state, what each field is after it: one lemma per field, true by
unfolding, so that no later proof unfolds a record update. -/

namespace Sys2Proof.Machine

/-! ### `State.setBuf`: the contents of one physical buffer -/

@[simp] theorem State.setBuf_width (s : State) (p : Bool) (m : Memory) : (s.setBuf p m).width = s.width := rfl
@[simp] theorem State.setBuf_rows (s : State) (p : Bool) (m : Memory) : (s.setBuf p m).rows = s.rows := rfl
@[simp] theorem State.setBuf_pinmap (s : State) (p : Bool) (m : Memory) : (s.setBuf p m).pinmap = s.pinmap := rfl
@[simp] theorem State.setBuf_gamma (s : State) (p : Bool) (m : Memory) : (s.setBuf p m).gamma = s.gamma := rfl
@[simp] theorem State.setBuf_rowaddr (s : State) (p : Bool) (m : Memory) : (s.setBuf p m).rowaddr = s.rowaddr := rfl
@[simp] theorem State.setBuf_cmt (s : State) (p : Bool) (m : Memory) : (s.setBuf p m).cmt = s.cmt := rfl
@[simp] theorem State.setBuf_buf0 (s : State) (p : Bool) (m : Memory) : (s.setBuf p m).buf0 = if p then s.buf0 else m := rfl
@[simp] theorem State.setBuf_buf1 (s : State) (p : Bool) (m : Memory) : (s.setBuf p m).buf1 = if p then m else s.buf1 := rfl
@[simp] theorem State.setBuf_front (s : State) (p : Bool) (m : Memory) : (s.setBuf p m).front = s.front := rfl
@[simp] theorem State.setBuf_running (s : State) (p : Bool) (m : Memory) : (s.setBuf p m).running = s.running := rfl
@[simp] theorem State.setBuf_parked (s : State) (p : Bool) (m : Memory) : (s.setBuf p m).parked = s.parked := rfl
@[simp] theorem State.setBuf_swapPending (s : State) (p : Bool) (m : Memory) : (s.setBuf p m).swapPending = s.swapPending := rfl
@[simp] theorem State.setBuf_swapGen (s : State) (p : Bool) (m : Memory) : (s.setBuf p m).swapGen = s.swapGen := rfl
@[simp] theorem State.setBuf_disposing (s : State) (p : Bool) (m : Memory) : (s.setBuf p m).disposing = s.disposing := rfl
@[simp] theorem State.setBuf_disposed (s : State) (p : Bool) (m : Memory) : (s.setBuf p m).disposed = s.disposed := rfl
@[simp] theorem State.setBuf_fault (s : State) (p : Bool) (m : Memory) : (s.setBuf p m).fault = s.fault := rfl
@[simp] theorem State.setBuf_baseNs (s : State) (p : Bool) (m : Memory) : (s.setBuf p m).baseNs = s.baseNs := rfl
@[simp] theorem State.setBuf_measureArmed (s : State) (p : Bool) (m : Memory) : (s.setBuf p m).measureArmed = s.measureArmed := rfl
@[simp] theorem State.setBuf_frameTimeNs (s : State) (p : Bool) (m : Memory) : (s.setBuf p m).frameTimeNs = s.frameTimeNs := rfl
@[simp] theorem State.setBuf_frameTimeValid (s : State) (p : Bool) (m : Memory) : (s.setBuf p m).frameTimeValid = s.frameTimeValid := rfl
@[simp] theorem State.setBuf_out (s : State) (p : Bool) (m : Memory) : (s.setBuf p m).out = s.out := rfl
@[simp] theorem State.setBuf_linesHeld (s : State) (p : Bool) (m : Memory) : (s.setBuf p m).linesHeld = s.linesHeld := rfl
@[simp] theorem State.setBuf_phase (s : State) (p : Bool) (m : Memory) : (s.setBuf p m).phase = s.phase := rfl
@[simp] theorem State.setBuf_curH (s : State) (p : Bool) (m : Memory) : (s.setBuf p m).curH = s.curH := rfl
@[simp] theorem State.setBuf_curI (s : State) (p : Bool) (m : Memory) : (s.setBuf p m).curI = s.curI := rfl
@[simp] theorem State.setBuf_curC (s : State) (p : Bool) (m : Memory) : (s.setBuf p m).curC = s.curC := rfl
@[simp] theorem State.setBuf_latB (s : State) (p : Bool) (m : Memory) : (s.setBuf p m).latB = s.latB := rfl
@[simp] theorem State.setBuf_t0 (s : State) (p : Bool) (m : Memory) : (s.setBuf p m).t0 = s.t0 := rfl
@[simp] theorem State.setBuf_tm0 (s : State) (p : Bool) (m : Memory) : (s.setBuf p m).tm0 = s.tm0 := rfl
@[simp] theorem State.setBuf_measActive (s : State) (p : Bool) (m : Memory) : (s.setBuf p m).measActive = s.measActive := rfl
@[simp] theorem State.setBuf_hosts (s : State) (p : Bool) (m : Memory) : (s.setBuf p m).hosts = s.hosts := rfl
@[simp] theorem State.setBuf_clockLast (s : State) (p : Bool) (m : Memory) : (s.setBuf p m).clockLast = s.clockLast := rfl
@[simp] theorem State.setBuf_clockDraws (s : State) (p : Bool) (m : Memory) : (s.setBuf p m).clockDraws = s.clockDraws := rfl
@[simp] theorem State.setBuf_clockReads (s : State) (p : Bool) (m : Memory) : (s.setBuf p m).clockReads = s.clockReads := rfl
@[simp] theorem State.setBuf_turns (s : State) (p : Bool) (m : Memory) : (s.setBuf p m).turns = s.turns := rfl
@[simp] theorem State.setBuf_turnsTaken (s : State) (p : Bool) (m : Memory) : (s.setBuf p m).turnsTaken = s.turnsTaken := rfl
@[simp] theorem State.setBuf_issuer (s : State) (p : Bool) (m : Memory) : (s.setBuf p m).issuer = s.issuer := rfl
@[simp] theorem State.setBuf_trace (s : State) (p : Bool) (m : Memory) : (s.setBuf p m).trace = s.trace := rfl

/-! ### `State.outWrite`: one transaction (R49) -/

@[simp] theorem State.outWrite_width (s : State) (x y : Lines) : (s.outWrite x y).width = s.width := rfl
@[simp] theorem State.outWrite_rows (s : State) (x y : Lines) : (s.outWrite x y).rows = s.rows := rfl
@[simp] theorem State.outWrite_pinmap (s : State) (x y : Lines) : (s.outWrite x y).pinmap = s.pinmap := rfl
@[simp] theorem State.outWrite_gamma (s : State) (x y : Lines) : (s.outWrite x y).gamma = s.gamma := rfl
@[simp] theorem State.outWrite_rowaddr (s : State) (x y : Lines) : (s.outWrite x y).rowaddr = s.rowaddr := rfl
@[simp] theorem State.outWrite_cmt (s : State) (x y : Lines) : (s.outWrite x y).cmt = s.cmt := rfl
@[simp] theorem State.outWrite_buf0 (s : State) (x y : Lines) : (s.outWrite x y).buf0 = s.buf0 := rfl
@[simp] theorem State.outWrite_buf1 (s : State) (x y : Lines) : (s.outWrite x y).buf1 = s.buf1 := rfl
@[simp] theorem State.outWrite_front (s : State) (x y : Lines) : (s.outWrite x y).front = s.front := rfl
@[simp] theorem State.outWrite_running (s : State) (x y : Lines) : (s.outWrite x y).running = s.running := rfl
@[simp] theorem State.outWrite_parked (s : State) (x y : Lines) : (s.outWrite x y).parked = s.parked := rfl
@[simp] theorem State.outWrite_swapPending (s : State) (x y : Lines) : (s.outWrite x y).swapPending = s.swapPending := rfl
@[simp] theorem State.outWrite_swapGen (s : State) (x y : Lines) : (s.outWrite x y).swapGen = s.swapGen := rfl
@[simp] theorem State.outWrite_disposing (s : State) (x y : Lines) : (s.outWrite x y).disposing = s.disposing := rfl
@[simp] theorem State.outWrite_disposed (s : State) (x y : Lines) : (s.outWrite x y).disposed = s.disposed := rfl
@[simp] theorem State.outWrite_fault (s : State) (x y : Lines) : (s.outWrite x y).fault = s.fault := rfl
@[simp] theorem State.outWrite_baseNs (s : State) (x y : Lines) : (s.outWrite x y).baseNs = s.baseNs := rfl
@[simp] theorem State.outWrite_measureArmed (s : State) (x y : Lines) : (s.outWrite x y).measureArmed = s.measureArmed := rfl
@[simp] theorem State.outWrite_frameTimeNs (s : State) (x y : Lines) : (s.outWrite x y).frameTimeNs = s.frameTimeNs := rfl
@[simp] theorem State.outWrite_frameTimeValid (s : State) (x y : Lines) : (s.outWrite x y).frameTimeValid = s.frameTimeValid := rfl
@[simp] theorem State.outWrite_out (s : State) (x y : Lines) : (s.outWrite x y).out = applyLines s.out x y := rfl
@[simp] theorem State.outWrite_linesHeld (s : State) (x y : Lines) : (s.outWrite x y).linesHeld = s.linesHeld := rfl
@[simp] theorem State.outWrite_phase (s : State) (x y : Lines) : (s.outWrite x y).phase = s.phase := rfl
@[simp] theorem State.outWrite_curH (s : State) (x y : Lines) : (s.outWrite x y).curH = s.curH := rfl
@[simp] theorem State.outWrite_curI (s : State) (x y : Lines) : (s.outWrite x y).curI = s.curI := rfl
@[simp] theorem State.outWrite_curC (s : State) (x y : Lines) : (s.outWrite x y).curC = s.curC := rfl
@[simp] theorem State.outWrite_latB (s : State) (x y : Lines) : (s.outWrite x y).latB = s.latB := rfl
@[simp] theorem State.outWrite_t0 (s : State) (x y : Lines) : (s.outWrite x y).t0 = s.t0 := rfl
@[simp] theorem State.outWrite_tm0 (s : State) (x y : Lines) : (s.outWrite x y).tm0 = s.tm0 := rfl
@[simp] theorem State.outWrite_measActive (s : State) (x y : Lines) : (s.outWrite x y).measActive = s.measActive := rfl
@[simp] theorem State.outWrite_hosts (s : State) (x y : Lines) : (s.outWrite x y).hosts = s.hosts := rfl
@[simp] theorem State.outWrite_clockLast (s : State) (x y : Lines) : (s.outWrite x y).clockLast = s.clockLast := rfl
@[simp] theorem State.outWrite_clockDraws (s : State) (x y : Lines) : (s.outWrite x y).clockDraws = s.clockDraws := rfl
@[simp] theorem State.outWrite_clockReads (s : State) (x y : Lines) : (s.outWrite x y).clockReads = s.clockReads := rfl
@[simp] theorem State.outWrite_turns (s : State) (x y : Lines) : (s.outWrite x y).turns = s.turns := rfl
@[simp] theorem State.outWrite_turnsTaken (s : State) (x y : Lines) : (s.outWrite x y).turnsTaken = s.turnsTaken := rfl
@[simp] theorem State.outWrite_issuer (s : State) (x y : Lines) : (s.outWrite x y).issuer = s.issuer := rfl
@[simp] theorem State.outWrite_trace (s : State) (x y : Lines) : (s.outWrite x y).trace = ⟨x, y, s.out⟩ :: s.trace := rfl

/-! ### `State.clockTick`: one clock read (R41) -/

@[simp] theorem State.clockTick_width (s : State) : (s.clockTick).width = s.width := rfl
@[simp] theorem State.clockTick_rows (s : State) : (s.clockTick).rows = s.rows := rfl
@[simp] theorem State.clockTick_pinmap (s : State) : (s.clockTick).pinmap = s.pinmap := rfl
@[simp] theorem State.clockTick_gamma (s : State) : (s.clockTick).gamma = s.gamma := rfl
@[simp] theorem State.clockTick_rowaddr (s : State) : (s.clockTick).rowaddr = s.rowaddr := rfl
@[simp] theorem State.clockTick_cmt (s : State) : (s.clockTick).cmt = s.cmt := rfl
@[simp] theorem State.clockTick_buf0 (s : State) : (s.clockTick).buf0 = s.buf0 := rfl
@[simp] theorem State.clockTick_buf1 (s : State) : (s.clockTick).buf1 = s.buf1 := rfl
@[simp] theorem State.clockTick_front (s : State) : (s.clockTick).front = s.front := rfl
@[simp] theorem State.clockTick_running (s : State) : (s.clockTick).running = s.running := rfl
@[simp] theorem State.clockTick_parked (s : State) : (s.clockTick).parked = s.parked := rfl
@[simp] theorem State.clockTick_swapPending (s : State) : (s.clockTick).swapPending = s.swapPending := rfl
@[simp] theorem State.clockTick_swapGen (s : State) : (s.clockTick).swapGen = s.swapGen := rfl
@[simp] theorem State.clockTick_disposing (s : State) : (s.clockTick).disposing = s.disposing := rfl
@[simp] theorem State.clockTick_disposed (s : State) : (s.clockTick).disposed = s.disposed := rfl
@[simp] theorem State.clockTick_fault (s : State) : (s.clockTick).fault = s.fault := rfl
@[simp] theorem State.clockTick_baseNs (s : State) : (s.clockTick).baseNs = s.baseNs := rfl
@[simp] theorem State.clockTick_measureArmed (s : State) : (s.clockTick).measureArmed = s.measureArmed := rfl
@[simp] theorem State.clockTick_frameTimeNs (s : State) : (s.clockTick).frameTimeNs = s.frameTimeNs := rfl
@[simp] theorem State.clockTick_frameTimeValid (s : State) : (s.clockTick).frameTimeValid = s.frameTimeValid := rfl
@[simp] theorem State.clockTick_out (s : State) : (s.clockTick).out = s.out := rfl
@[simp] theorem State.clockTick_linesHeld (s : State) : (s.clockTick).linesHeld = s.linesHeld := rfl
@[simp] theorem State.clockTick_phase (s : State) : (s.clockTick).phase = s.phase := rfl
@[simp] theorem State.clockTick_curH (s : State) : (s.clockTick).curH = s.curH := rfl
@[simp] theorem State.clockTick_curI (s : State) : (s.clockTick).curI = s.curI := rfl
@[simp] theorem State.clockTick_curC (s : State) : (s.clockTick).curC = s.curC := rfl
@[simp] theorem State.clockTick_latB (s : State) : (s.clockTick).latB = s.latB := rfl
@[simp] theorem State.clockTick_t0 (s : State) : (s.clockTick).t0 = s.t0 := rfl
@[simp] theorem State.clockTick_tm0 (s : State) : (s.clockTick).tm0 = s.tm0 := rfl
@[simp] theorem State.clockTick_measActive (s : State) : (s.clockTick).measActive = s.measActive := rfl
@[simp] theorem State.clockTick_hosts (s : State) : (s.clockTick).hosts = s.hosts := rfl
@[simp] theorem State.clockTick_clockLast (s : State) : (s.clockTick).clockLast = s.clockValue := rfl
@[simp] theorem State.clockTick_clockDraws (s : State) : (s.clockTick).clockDraws = s.clockDraws.tail := rfl
@[simp] theorem State.clockTick_clockReads (s : State) : (s.clockTick).clockReads = s.clockReads + 1 := rfl
@[simp] theorem State.clockTick_turns (s : State) : (s.clockTick).turns = s.turns := rfl
@[simp] theorem State.clockTick_turnsTaken (s : State) : (s.clockTick).turnsTaken = s.turnsTaken := rfl
@[simp] theorem State.clockTick_issuer (s : State) : (s.clockTick).issuer = s.issuer := rfl
@[simp] theorem State.clockTick_trace (s : State) : (s.clockTick).trace = s.trace := rfl

/-! ### `State.modifyHost`: one host agent's record -/

@[simp] theorem State.modifyHost_width (s : State) (k : Nat) (f : HostAgent → HostAgent) : (s.modifyHost k f).width = s.width := rfl
@[simp] theorem State.modifyHost_rows (s : State) (k : Nat) (f : HostAgent → HostAgent) : (s.modifyHost k f).rows = s.rows := rfl
@[simp] theorem State.modifyHost_pinmap (s : State) (k : Nat) (f : HostAgent → HostAgent) : (s.modifyHost k f).pinmap = s.pinmap := rfl
@[simp] theorem State.modifyHost_gamma (s : State) (k : Nat) (f : HostAgent → HostAgent) : (s.modifyHost k f).gamma = s.gamma := rfl
@[simp] theorem State.modifyHost_rowaddr (s : State) (k : Nat) (f : HostAgent → HostAgent) : (s.modifyHost k f).rowaddr = s.rowaddr := rfl
@[simp] theorem State.modifyHost_cmt (s : State) (k : Nat) (f : HostAgent → HostAgent) : (s.modifyHost k f).cmt = s.cmt := rfl
@[simp] theorem State.modifyHost_buf0 (s : State) (k : Nat) (f : HostAgent → HostAgent) : (s.modifyHost k f).buf0 = s.buf0 := rfl
@[simp] theorem State.modifyHost_buf1 (s : State) (k : Nat) (f : HostAgent → HostAgent) : (s.modifyHost k f).buf1 = s.buf1 := rfl
@[simp] theorem State.modifyHost_front (s : State) (k : Nat) (f : HostAgent → HostAgent) : (s.modifyHost k f).front = s.front := rfl
@[simp] theorem State.modifyHost_running (s : State) (k : Nat) (f : HostAgent → HostAgent) : (s.modifyHost k f).running = s.running := rfl
@[simp] theorem State.modifyHost_parked (s : State) (k : Nat) (f : HostAgent → HostAgent) : (s.modifyHost k f).parked = s.parked := rfl
@[simp] theorem State.modifyHost_swapPending (s : State) (k : Nat) (f : HostAgent → HostAgent) : (s.modifyHost k f).swapPending = s.swapPending := rfl
@[simp] theorem State.modifyHost_swapGen (s : State) (k : Nat) (f : HostAgent → HostAgent) : (s.modifyHost k f).swapGen = s.swapGen := rfl
@[simp] theorem State.modifyHost_disposing (s : State) (k : Nat) (f : HostAgent → HostAgent) : (s.modifyHost k f).disposing = s.disposing := rfl
@[simp] theorem State.modifyHost_disposed (s : State) (k : Nat) (f : HostAgent → HostAgent) : (s.modifyHost k f).disposed = s.disposed := rfl
@[simp] theorem State.modifyHost_fault (s : State) (k : Nat) (f : HostAgent → HostAgent) : (s.modifyHost k f).fault = s.fault := rfl
@[simp] theorem State.modifyHost_baseNs (s : State) (k : Nat) (f : HostAgent → HostAgent) : (s.modifyHost k f).baseNs = s.baseNs := rfl
@[simp] theorem State.modifyHost_measureArmed (s : State) (k : Nat) (f : HostAgent → HostAgent) : (s.modifyHost k f).measureArmed = s.measureArmed := rfl
@[simp] theorem State.modifyHost_frameTimeNs (s : State) (k : Nat) (f : HostAgent → HostAgent) : (s.modifyHost k f).frameTimeNs = s.frameTimeNs := rfl
@[simp] theorem State.modifyHost_frameTimeValid (s : State) (k : Nat) (f : HostAgent → HostAgent) : (s.modifyHost k f).frameTimeValid = s.frameTimeValid := rfl
@[simp] theorem State.modifyHost_out (s : State) (k : Nat) (f : HostAgent → HostAgent) : (s.modifyHost k f).out = s.out := rfl
@[simp] theorem State.modifyHost_linesHeld (s : State) (k : Nat) (f : HostAgent → HostAgent) : (s.modifyHost k f).linesHeld = s.linesHeld := rfl
@[simp] theorem State.modifyHost_phase (s : State) (k : Nat) (f : HostAgent → HostAgent) : (s.modifyHost k f).phase = s.phase := rfl
@[simp] theorem State.modifyHost_curH (s : State) (k : Nat) (f : HostAgent → HostAgent) : (s.modifyHost k f).curH = s.curH := rfl
@[simp] theorem State.modifyHost_curI (s : State) (k : Nat) (f : HostAgent → HostAgent) : (s.modifyHost k f).curI = s.curI := rfl
@[simp] theorem State.modifyHost_curC (s : State) (k : Nat) (f : HostAgent → HostAgent) : (s.modifyHost k f).curC = s.curC := rfl
@[simp] theorem State.modifyHost_latB (s : State) (k : Nat) (f : HostAgent → HostAgent) : (s.modifyHost k f).latB = s.latB := rfl
@[simp] theorem State.modifyHost_t0 (s : State) (k : Nat) (f : HostAgent → HostAgent) : (s.modifyHost k f).t0 = s.t0 := rfl
@[simp] theorem State.modifyHost_tm0 (s : State) (k : Nat) (f : HostAgent → HostAgent) : (s.modifyHost k f).tm0 = s.tm0 := rfl
@[simp] theorem State.modifyHost_measActive (s : State) (k : Nat) (f : HostAgent → HostAgent) : (s.modifyHost k f).measActive = s.measActive := rfl
@[simp] theorem State.modifyHost_hosts (s : State) (k : Nat) (f : HostAgent → HostAgent) : (s.modifyHost k f).hosts = s.hosts.modify k f := rfl
@[simp] theorem State.modifyHost_clockLast (s : State) (k : Nat) (f : HostAgent → HostAgent) : (s.modifyHost k f).clockLast = s.clockLast := rfl
@[simp] theorem State.modifyHost_clockDraws (s : State) (k : Nat) (f : HostAgent → HostAgent) : (s.modifyHost k f).clockDraws = s.clockDraws := rfl
@[simp] theorem State.modifyHost_clockReads (s : State) (k : Nat) (f : HostAgent → HostAgent) : (s.modifyHost k f).clockReads = s.clockReads := rfl
@[simp] theorem State.modifyHost_turns (s : State) (k : Nat) (f : HostAgent → HostAgent) : (s.modifyHost k f).turns = s.turns := rfl
@[simp] theorem State.modifyHost_turnsTaken (s : State) (k : Nat) (f : HostAgent → HostAgent) : (s.modifyHost k f).turnsTaken = s.turnsTaken := rfl
@[simp] theorem State.modifyHost_issuer (s : State) (k : Nat) (f : HostAgent → HostAgent) : (s.modifyHost k f).issuer = s.issuer := rfl
@[simp] theorem State.modifyHost_trace (s : State) (k : Nat) (f : HostAgent → HostAgent) : (s.modifyHost k f).trace = s.trace := rfl

/-! ### `State.setPhase`: where a host agent is in its command -/

@[simp] theorem State.setPhase_width (s : State) (k : Nat) (p : HPhase) : (s.setPhase k p).width = s.width := rfl
@[simp] theorem State.setPhase_rows (s : State) (k : Nat) (p : HPhase) : (s.setPhase k p).rows = s.rows := rfl
@[simp] theorem State.setPhase_pinmap (s : State) (k : Nat) (p : HPhase) : (s.setPhase k p).pinmap = s.pinmap := rfl
@[simp] theorem State.setPhase_gamma (s : State) (k : Nat) (p : HPhase) : (s.setPhase k p).gamma = s.gamma := rfl
@[simp] theorem State.setPhase_rowaddr (s : State) (k : Nat) (p : HPhase) : (s.setPhase k p).rowaddr = s.rowaddr := rfl
@[simp] theorem State.setPhase_cmt (s : State) (k : Nat) (p : HPhase) : (s.setPhase k p).cmt = s.cmt := rfl
@[simp] theorem State.setPhase_buf0 (s : State) (k : Nat) (p : HPhase) : (s.setPhase k p).buf0 = s.buf0 := rfl
@[simp] theorem State.setPhase_buf1 (s : State) (k : Nat) (p : HPhase) : (s.setPhase k p).buf1 = s.buf1 := rfl
@[simp] theorem State.setPhase_front (s : State) (k : Nat) (p : HPhase) : (s.setPhase k p).front = s.front := rfl
@[simp] theorem State.setPhase_running (s : State) (k : Nat) (p : HPhase) : (s.setPhase k p).running = s.running := rfl
@[simp] theorem State.setPhase_parked (s : State) (k : Nat) (p : HPhase) : (s.setPhase k p).parked = s.parked := rfl
@[simp] theorem State.setPhase_swapPending (s : State) (k : Nat) (p : HPhase) : (s.setPhase k p).swapPending = s.swapPending := rfl
@[simp] theorem State.setPhase_swapGen (s : State) (k : Nat) (p : HPhase) : (s.setPhase k p).swapGen = s.swapGen := rfl
@[simp] theorem State.setPhase_disposing (s : State) (k : Nat) (p : HPhase) : (s.setPhase k p).disposing = s.disposing := rfl
@[simp] theorem State.setPhase_disposed (s : State) (k : Nat) (p : HPhase) : (s.setPhase k p).disposed = s.disposed := rfl
@[simp] theorem State.setPhase_fault (s : State) (k : Nat) (p : HPhase) : (s.setPhase k p).fault = s.fault := rfl
@[simp] theorem State.setPhase_baseNs (s : State) (k : Nat) (p : HPhase) : (s.setPhase k p).baseNs = s.baseNs := rfl
@[simp] theorem State.setPhase_measureArmed (s : State) (k : Nat) (p : HPhase) : (s.setPhase k p).measureArmed = s.measureArmed := rfl
@[simp] theorem State.setPhase_frameTimeNs (s : State) (k : Nat) (p : HPhase) : (s.setPhase k p).frameTimeNs = s.frameTimeNs := rfl
@[simp] theorem State.setPhase_frameTimeValid (s : State) (k : Nat) (p : HPhase) : (s.setPhase k p).frameTimeValid = s.frameTimeValid := rfl
@[simp] theorem State.setPhase_out (s : State) (k : Nat) (p : HPhase) : (s.setPhase k p).out = s.out := rfl
@[simp] theorem State.setPhase_linesHeld (s : State) (k : Nat) (p : HPhase) : (s.setPhase k p).linesHeld = s.linesHeld := rfl
@[simp] theorem State.setPhase_phase (s : State) (k : Nat) (p : HPhase) : (s.setPhase k p).phase = s.phase := rfl
@[simp] theorem State.setPhase_curH (s : State) (k : Nat) (p : HPhase) : (s.setPhase k p).curH = s.curH := rfl
@[simp] theorem State.setPhase_curI (s : State) (k : Nat) (p : HPhase) : (s.setPhase k p).curI = s.curI := rfl
@[simp] theorem State.setPhase_curC (s : State) (k : Nat) (p : HPhase) : (s.setPhase k p).curC = s.curC := rfl
@[simp] theorem State.setPhase_latB (s : State) (k : Nat) (p : HPhase) : (s.setPhase k p).latB = s.latB := rfl
@[simp] theorem State.setPhase_t0 (s : State) (k : Nat) (p : HPhase) : (s.setPhase k p).t0 = s.t0 := rfl
@[simp] theorem State.setPhase_tm0 (s : State) (k : Nat) (p : HPhase) : (s.setPhase k p).tm0 = s.tm0 := rfl
@[simp] theorem State.setPhase_measActive (s : State) (k : Nat) (p : HPhase) : (s.setPhase k p).measActive = s.measActive := rfl
@[simp] theorem State.setPhase_hosts (s : State) (k : Nat) (p : HPhase) : (s.setPhase k p).hosts = s.hosts.modify k (fun a => { a with hphase := p }) := rfl
@[simp] theorem State.setPhase_clockLast (s : State) (k : Nat) (p : HPhase) : (s.setPhase k p).clockLast = s.clockLast := rfl
@[simp] theorem State.setPhase_clockDraws (s : State) (k : Nat) (p : HPhase) : (s.setPhase k p).clockDraws = s.clockDraws := rfl
@[simp] theorem State.setPhase_clockReads (s : State) (k : Nat) (p : HPhase) : (s.setPhase k p).clockReads = s.clockReads := rfl
@[simp] theorem State.setPhase_turns (s : State) (k : Nat) (p : HPhase) : (s.setPhase k p).turns = s.turns := rfl
@[simp] theorem State.setPhase_turnsTaken (s : State) (k : Nat) (p : HPhase) : (s.setPhase k p).turnsTaken = s.turnsTaken := rfl
@[simp] theorem State.setPhase_issuer (s : State) (k : Nat) (p : HPhase) : (s.setPhase k p).issuer = s.issuer := rfl
@[simp] theorem State.setPhase_trace (s : State) (k : Nat) (p : HPhase) : (s.setPhase k p).trace = s.trace := rfl

/-! ### `State.complete`: the end of a command -/

@[simp] theorem State.complete_width (s : State) (k : Nat) (v : Word) : (s.complete k v).width = s.width := rfl
@[simp] theorem State.complete_rows (s : State) (k : Nat) (v : Word) : (s.complete k v).rows = s.rows := rfl
@[simp] theorem State.complete_pinmap (s : State) (k : Nat) (v : Word) : (s.complete k v).pinmap = s.pinmap := rfl
@[simp] theorem State.complete_gamma (s : State) (k : Nat) (v : Word) : (s.complete k v).gamma = s.gamma := rfl
@[simp] theorem State.complete_rowaddr (s : State) (k : Nat) (v : Word) : (s.complete k v).rowaddr = s.rowaddr := rfl
@[simp] theorem State.complete_cmt (s : State) (k : Nat) (v : Word) : (s.complete k v).cmt = s.cmt := rfl
@[simp] theorem State.complete_buf0 (s : State) (k : Nat) (v : Word) : (s.complete k v).buf0 = s.buf0 := rfl
@[simp] theorem State.complete_buf1 (s : State) (k : Nat) (v : Word) : (s.complete k v).buf1 = s.buf1 := rfl
@[simp] theorem State.complete_front (s : State) (k : Nat) (v : Word) : (s.complete k v).front = s.front := rfl
@[simp] theorem State.complete_running (s : State) (k : Nat) (v : Word) : (s.complete k v).running = s.running := rfl
@[simp] theorem State.complete_parked (s : State) (k : Nat) (v : Word) : (s.complete k v).parked = s.parked := rfl
@[simp] theorem State.complete_swapPending (s : State) (k : Nat) (v : Word) : (s.complete k v).swapPending = s.swapPending := rfl
@[simp] theorem State.complete_swapGen (s : State) (k : Nat) (v : Word) : (s.complete k v).swapGen = s.swapGen := rfl
@[simp] theorem State.complete_disposing (s : State) (k : Nat) (v : Word) : (s.complete k v).disposing = s.disposing := rfl
@[simp] theorem State.complete_disposed (s : State) (k : Nat) (v : Word) : (s.complete k v).disposed = s.disposed := rfl
@[simp] theorem State.complete_fault (s : State) (k : Nat) (v : Word) : (s.complete k v).fault = s.fault := rfl
@[simp] theorem State.complete_baseNs (s : State) (k : Nat) (v : Word) : (s.complete k v).baseNs = s.baseNs := rfl
@[simp] theorem State.complete_measureArmed (s : State) (k : Nat) (v : Word) : (s.complete k v).measureArmed = s.measureArmed := rfl
@[simp] theorem State.complete_frameTimeNs (s : State) (k : Nat) (v : Word) : (s.complete k v).frameTimeNs = s.frameTimeNs := rfl
@[simp] theorem State.complete_frameTimeValid (s : State) (k : Nat) (v : Word) : (s.complete k v).frameTimeValid = s.frameTimeValid := rfl
@[simp] theorem State.complete_out (s : State) (k : Nat) (v : Word) : (s.complete k v).out = s.out := rfl
@[simp] theorem State.complete_linesHeld (s : State) (k : Nat) (v : Word) : (s.complete k v).linesHeld = s.linesHeld := rfl
@[simp] theorem State.complete_phase (s : State) (k : Nat) (v : Word) : (s.complete k v).phase = s.phase := rfl
@[simp] theorem State.complete_curH (s : State) (k : Nat) (v : Word) : (s.complete k v).curH = s.curH := rfl
@[simp] theorem State.complete_curI (s : State) (k : Nat) (v : Word) : (s.complete k v).curI = s.curI := rfl
@[simp] theorem State.complete_curC (s : State) (k : Nat) (v : Word) : (s.complete k v).curC = s.curC := rfl
@[simp] theorem State.complete_latB (s : State) (k : Nat) (v : Word) : (s.complete k v).latB = s.latB := rfl
@[simp] theorem State.complete_t0 (s : State) (k : Nat) (v : Word) : (s.complete k v).t0 = s.t0 := rfl
@[simp] theorem State.complete_tm0 (s : State) (k : Nat) (v : Word) : (s.complete k v).tm0 = s.tm0 := rfl
@[simp] theorem State.complete_measActive (s : State) (k : Nat) (v : Word) : (s.complete k v).measActive = s.measActive := rfl
@[simp] theorem State.complete_hosts (s : State) (k : Nat) (v : Word) : (s.complete k v).hosts = s.hosts.modify k (fun a => { a with hphase := .ready, resp := some v }) := rfl
@[simp] theorem State.complete_clockLast (s : State) (k : Nat) (v : Word) : (s.complete k v).clockLast = s.clockLast := rfl
@[simp] theorem State.complete_clockDraws (s : State) (k : Nat) (v : Word) : (s.complete k v).clockDraws = s.clockDraws := rfl
@[simp] theorem State.complete_clockReads (s : State) (k : Nat) (v : Word) : (s.complete k v).clockReads = s.clockReads := rfl
@[simp] theorem State.complete_turns (s : State) (k : Nat) (v : Word) : (s.complete k v).turns = s.turns := rfl
@[simp] theorem State.complete_turnsTaken (s : State) (k : Nat) (v : Word) : (s.complete k v).turnsTaken = s.turnsTaken := rfl
@[simp] theorem State.complete_issuer (s : State) (k : Nat) (v : Word) : (s.complete k v).issuer = s.issuer := rfl
@[simp] theorem State.complete_trace (s : State) (k : Nat) (v : Word) : (s.complete k v).trace = s.trace := rfl

/-! ### `State.raiseFault`: a recorded fault (R165) -/

@[simp] theorem State.raiseFault_width (s : State) (k : Nat) (e : FaultCode) : (s.raiseFault k e).width = s.width := rfl
@[simp] theorem State.raiseFault_rows (s : State) (k : Nat) (e : FaultCode) : (s.raiseFault k e).rows = s.rows := rfl
@[simp] theorem State.raiseFault_pinmap (s : State) (k : Nat) (e : FaultCode) : (s.raiseFault k e).pinmap = s.pinmap := rfl
@[simp] theorem State.raiseFault_gamma (s : State) (k : Nat) (e : FaultCode) : (s.raiseFault k e).gamma = s.gamma := rfl
@[simp] theorem State.raiseFault_rowaddr (s : State) (k : Nat) (e : FaultCode) : (s.raiseFault k e).rowaddr = s.rowaddr := rfl
@[simp] theorem State.raiseFault_cmt (s : State) (k : Nat) (e : FaultCode) : (s.raiseFault k e).cmt = s.cmt := rfl
@[simp] theorem State.raiseFault_buf0 (s : State) (k : Nat) (e : FaultCode) : (s.raiseFault k e).buf0 = s.buf0 := rfl
@[simp] theorem State.raiseFault_buf1 (s : State) (k : Nat) (e : FaultCode) : (s.raiseFault k e).buf1 = s.buf1 := rfl
@[simp] theorem State.raiseFault_front (s : State) (k : Nat) (e : FaultCode) : (s.raiseFault k e).front = s.front := rfl
@[simp] theorem State.raiseFault_running (s : State) (k : Nat) (e : FaultCode) : (s.raiseFault k e).running = s.running := rfl
@[simp] theorem State.raiseFault_parked (s : State) (k : Nat) (e : FaultCode) : (s.raiseFault k e).parked = s.parked := rfl
@[simp] theorem State.raiseFault_swapPending (s : State) (k : Nat) (e : FaultCode) : (s.raiseFault k e).swapPending = s.swapPending := rfl
@[simp] theorem State.raiseFault_swapGen (s : State) (k : Nat) (e : FaultCode) : (s.raiseFault k e).swapGen = s.swapGen := rfl
@[simp] theorem State.raiseFault_disposing (s : State) (k : Nat) (e : FaultCode) : (s.raiseFault k e).disposing = s.disposing := rfl
@[simp] theorem State.raiseFault_disposed (s : State) (k : Nat) (e : FaultCode) : (s.raiseFault k e).disposed = s.disposed := rfl
@[simp] theorem State.raiseFault_fault (s : State) (k : Nat) (e : FaultCode) : (s.raiseFault k e).fault = recordFault s.fault e := rfl
@[simp] theorem State.raiseFault_baseNs (s : State) (k : Nat) (e : FaultCode) : (s.raiseFault k e).baseNs = s.baseNs := rfl
@[simp] theorem State.raiseFault_measureArmed (s : State) (k : Nat) (e : FaultCode) : (s.raiseFault k e).measureArmed = s.measureArmed := rfl
@[simp] theorem State.raiseFault_frameTimeNs (s : State) (k : Nat) (e : FaultCode) : (s.raiseFault k e).frameTimeNs = s.frameTimeNs := rfl
@[simp] theorem State.raiseFault_frameTimeValid (s : State) (k : Nat) (e : FaultCode) : (s.raiseFault k e).frameTimeValid = s.frameTimeValid := rfl
@[simp] theorem State.raiseFault_out (s : State) (k : Nat) (e : FaultCode) : (s.raiseFault k e).out = s.out := rfl
@[simp] theorem State.raiseFault_linesHeld (s : State) (k : Nat) (e : FaultCode) : (s.raiseFault k e).linesHeld = s.linesHeld := rfl
@[simp] theorem State.raiseFault_phase (s : State) (k : Nat) (e : FaultCode) : (s.raiseFault k e).phase = s.phase := rfl
@[simp] theorem State.raiseFault_curH (s : State) (k : Nat) (e : FaultCode) : (s.raiseFault k e).curH = s.curH := rfl
@[simp] theorem State.raiseFault_curI (s : State) (k : Nat) (e : FaultCode) : (s.raiseFault k e).curI = s.curI := rfl
@[simp] theorem State.raiseFault_curC (s : State) (k : Nat) (e : FaultCode) : (s.raiseFault k e).curC = s.curC := rfl
@[simp] theorem State.raiseFault_latB (s : State) (k : Nat) (e : FaultCode) : (s.raiseFault k e).latB = s.latB := rfl
@[simp] theorem State.raiseFault_t0 (s : State) (k : Nat) (e : FaultCode) : (s.raiseFault k e).t0 = s.t0 := rfl
@[simp] theorem State.raiseFault_tm0 (s : State) (k : Nat) (e : FaultCode) : (s.raiseFault k e).tm0 = s.tm0 := rfl
@[simp] theorem State.raiseFault_measActive (s : State) (k : Nat) (e : FaultCode) : (s.raiseFault k e).measActive = s.measActive := rfl
@[simp] theorem State.raiseFault_hosts (s : State) (k : Nat) (e : FaultCode) : (s.raiseFault k e).hosts = s.hosts.modify k (fun a => { a with hphase := .ready, resp := some 0#64 }) := rfl
@[simp] theorem State.raiseFault_clockLast (s : State) (k : Nat) (e : FaultCode) : (s.raiseFault k e).clockLast = s.clockLast := rfl
@[simp] theorem State.raiseFault_clockDraws (s : State) (k : Nat) (e : FaultCode) : (s.raiseFault k e).clockDraws = s.clockDraws := rfl
@[simp] theorem State.raiseFault_clockReads (s : State) (k : Nat) (e : FaultCode) : (s.raiseFault k e).clockReads = s.clockReads := rfl
@[simp] theorem State.raiseFault_turns (s : State) (k : Nat) (e : FaultCode) : (s.raiseFault k e).turns = s.turns := rfl
@[simp] theorem State.raiseFault_turnsTaken (s : State) (k : Nat) (e : FaultCode) : (s.raiseFault k e).turnsTaken = s.turnsTaken := rfl
@[simp] theorem State.raiseFault_issuer (s : State) (k : Nat) (e : FaultCode) : (s.raiseFault k e).issuer = s.issuer := rfl
@[simp] theorem State.raiseFault_trace (s : State) (k : Nat) (e : FaultCode) : (s.raiseFault k e).trace = s.trace := rfl

/-! ### `State.endTurn`: the end of a turn -/

@[simp] theorem State.endTurn_width (s : State) : (s.endTurn).width = s.width := rfl
@[simp] theorem State.endTurn_rows (s : State) : (s.endTurn).rows = s.rows := rfl
@[simp] theorem State.endTurn_pinmap (s : State) : (s.endTurn).pinmap = s.pinmap := rfl
@[simp] theorem State.endTurn_gamma (s : State) : (s.endTurn).gamma = s.gamma := rfl
@[simp] theorem State.endTurn_rowaddr (s : State) : (s.endTurn).rowaddr = s.rowaddr := rfl
@[simp] theorem State.endTurn_cmt (s : State) : (s.endTurn).cmt = s.cmt := rfl
@[simp] theorem State.endTurn_buf0 (s : State) : (s.endTurn).buf0 = s.buf0 := rfl
@[simp] theorem State.endTurn_buf1 (s : State) : (s.endTurn).buf1 = s.buf1 := rfl
@[simp] theorem State.endTurn_front (s : State) : (s.endTurn).front = s.front := rfl
@[simp] theorem State.endTurn_running (s : State) : (s.endTurn).running = s.running := rfl
@[simp] theorem State.endTurn_parked (s : State) : (s.endTurn).parked = s.parked := rfl
@[simp] theorem State.endTurn_swapPending (s : State) : (s.endTurn).swapPending = s.swapPending := rfl
@[simp] theorem State.endTurn_swapGen (s : State) : (s.endTurn).swapGen = s.swapGen := rfl
@[simp] theorem State.endTurn_disposing (s : State) : (s.endTurn).disposing = s.disposing := rfl
@[simp] theorem State.endTurn_disposed (s : State) : (s.endTurn).disposed = s.disposed := rfl
@[simp] theorem State.endTurn_fault (s : State) : (s.endTurn).fault = s.fault := rfl
@[simp] theorem State.endTurn_baseNs (s : State) : (s.endTurn).baseNs = s.baseNs := rfl
@[simp] theorem State.endTurn_measureArmed (s : State) : (s.endTurn).measureArmed = s.measureArmed := rfl
@[simp] theorem State.endTurn_frameTimeNs (s : State) : (s.endTurn).frameTimeNs = s.frameTimeNs := rfl
@[simp] theorem State.endTurn_frameTimeValid (s : State) : (s.endTurn).frameTimeValid = s.frameTimeValid := rfl
@[simp] theorem State.endTurn_out (s : State) : (s.endTurn).out = s.out := rfl
@[simp] theorem State.endTurn_linesHeld (s : State) : (s.endTurn).linesHeld = s.linesHeld := rfl
@[simp] theorem State.endTurn_phase (s : State) : (s.endTurn).phase = s.phase := rfl
@[simp] theorem State.endTurn_curH (s : State) : (s.endTurn).curH = s.curH := rfl
@[simp] theorem State.endTurn_curI (s : State) : (s.endTurn).curI = s.curI := rfl
@[simp] theorem State.endTurn_curC (s : State) : (s.endTurn).curC = s.curC := rfl
@[simp] theorem State.endTurn_latB (s : State) : (s.endTurn).latB = s.latB := rfl
@[simp] theorem State.endTurn_t0 (s : State) : (s.endTurn).t0 = s.t0 := rfl
@[simp] theorem State.endTurn_tm0 (s : State) : (s.endTurn).tm0 = s.tm0 := rfl
@[simp] theorem State.endTurn_measActive (s : State) : (s.endTurn).measActive = s.measActive := rfl
@[simp] theorem State.endTurn_hosts (s : State) : (s.endTurn).hosts = s.hosts := rfl
@[simp] theorem State.endTurn_clockLast (s : State) : (s.endTurn).clockLast = s.clockLast := rfl
@[simp] theorem State.endTurn_clockDraws (s : State) : (s.endTurn).clockDraws = s.clockDraws := rfl
@[simp] theorem State.endTurn_clockReads (s : State) : (s.endTurn).clockReads = s.clockReads := rfl
@[simp] theorem State.endTurn_turns (s : State) : (s.endTurn).turns = s.turns.tail := rfl
@[simp] theorem State.endTurn_turnsTaken (s : State) : (s.endTurn).turnsTaken = s.turnsTaken + 1 := rfl
@[simp] theorem State.endTurn_issuer (s : State) : (s.endTurn).issuer = s.issuer := rfl
@[simp] theorem State.endTurn_trace (s : State) : (s.endTurn).trace = s.trace := rfl

/-! ### `State.issue`: the issue of a command -/

@[simp] theorem State.issue_width (s : State) (k : Nat) : (s.issue k).width = s.width := rfl
@[simp] theorem State.issue_rows (s : State) (k : Nat) : (s.issue k).rows = s.rows := rfl
@[simp] theorem State.issue_pinmap (s : State) (k : Nat) : (s.issue k).pinmap = s.pinmap := rfl
@[simp] theorem State.issue_gamma (s : State) (k : Nat) : (s.issue k).gamma = s.gamma := rfl
@[simp] theorem State.issue_rowaddr (s : State) (k : Nat) : (s.issue k).rowaddr = s.rowaddr := rfl
@[simp] theorem State.issue_cmt (s : State) (k : Nat) : (s.issue k).cmt = s.cmt := rfl
@[simp] theorem State.issue_buf0 (s : State) (k : Nat) : (s.issue k).buf0 = s.buf0 := rfl
@[simp] theorem State.issue_buf1 (s : State) (k : Nat) : (s.issue k).buf1 = s.buf1 := rfl
@[simp] theorem State.issue_front (s : State) (k : Nat) : (s.issue k).front = s.front := rfl
@[simp] theorem State.issue_running (s : State) (k : Nat) : (s.issue k).running = s.running := rfl
@[simp] theorem State.issue_parked (s : State) (k : Nat) : (s.issue k).parked = s.parked := rfl
@[simp] theorem State.issue_swapPending (s : State) (k : Nat) : (s.issue k).swapPending = s.swapPending := rfl
@[simp] theorem State.issue_swapGen (s : State) (k : Nat) : (s.issue k).swapGen = s.swapGen := rfl
@[simp] theorem State.issue_disposing (s : State) (k : Nat) : (s.issue k).disposing = s.disposing := rfl
@[simp] theorem State.issue_disposed (s : State) (k : Nat) : (s.issue k).disposed = s.disposed := rfl
@[simp] theorem State.issue_fault (s : State) (k : Nat) : (s.issue k).fault = s.fault := rfl
@[simp] theorem State.issue_baseNs (s : State) (k : Nat) : (s.issue k).baseNs = s.baseNs := rfl
@[simp] theorem State.issue_measureArmed (s : State) (k : Nat) : (s.issue k).measureArmed = s.measureArmed := rfl
@[simp] theorem State.issue_frameTimeNs (s : State) (k : Nat) : (s.issue k).frameTimeNs = s.frameTimeNs := rfl
@[simp] theorem State.issue_frameTimeValid (s : State) (k : Nat) : (s.issue k).frameTimeValid = s.frameTimeValid := rfl
@[simp] theorem State.issue_out (s : State) (k : Nat) : (s.issue k).out = s.out := rfl
@[simp] theorem State.issue_linesHeld (s : State) (k : Nat) : (s.issue k).linesHeld = s.linesHeld := rfl
@[simp] theorem State.issue_phase (s : State) (k : Nat) : (s.issue k).phase = s.phase := rfl
@[simp] theorem State.issue_curH (s : State) (k : Nat) : (s.issue k).curH = s.curH := rfl
@[simp] theorem State.issue_curI (s : State) (k : Nat) : (s.issue k).curI = s.curI := rfl
@[simp] theorem State.issue_curC (s : State) (k : Nat) : (s.issue k).curC = s.curC := rfl
@[simp] theorem State.issue_latB (s : State) (k : Nat) : (s.issue k).latB = s.latB := rfl
@[simp] theorem State.issue_t0 (s : State) (k : Nat) : (s.issue k).t0 = s.t0 := rfl
@[simp] theorem State.issue_tm0 (s : State) (k : Nat) : (s.issue k).tm0 = s.tm0 := rfl
@[simp] theorem State.issue_measActive (s : State) (k : Nat) : (s.issue k).measActive = s.measActive := rfl
@[simp] theorem State.issue_hosts (s : State) (k : Nat) : (s.issue k).hosts = s.hosts.modify k (fun a => { a with resp := none, cmds := a.cmds.tail }) := rfl
@[simp] theorem State.issue_clockLast (s : State) (k : Nat) : (s.issue k).clockLast = s.clockLast := rfl
@[simp] theorem State.issue_clockDraws (s : State) (k : Nat) : (s.issue k).clockDraws = s.clockDraws := rfl
@[simp] theorem State.issue_clockReads (s : State) (k : Nat) : (s.issue k).clockReads = s.clockReads := rfl
@[simp] theorem State.issue_turns (s : State) (k : Nat) : (s.issue k).turns = s.turns := rfl
@[simp] theorem State.issue_turnsTaken (s : State) (k : Nat) : (s.issue k).turnsTaken = s.turnsTaken := rfl
@[simp] theorem State.issue_issuer (s : State) (k : Nat) : (s.issue k).issuer = k := rfl
@[simp] theorem State.issue_trace (s : State) (k : Nat) : (s.issue k).trace = s.trace := rfl

/-! ### `State.swapExchange`: the exchange (R108) -/

@[simp] theorem State.swapExchange_width (s : State) : (s.swapExchange).width = s.width := rfl
@[simp] theorem State.swapExchange_rows (s : State) : (s.swapExchange).rows = s.rows := rfl
@[simp] theorem State.swapExchange_pinmap (s : State) : (s.swapExchange).pinmap = s.pinmap := rfl
@[simp] theorem State.swapExchange_gamma (s : State) : (s.swapExchange).gamma = s.gamma := rfl
@[simp] theorem State.swapExchange_rowaddr (s : State) : (s.swapExchange).rowaddr = s.rowaddr := rfl
@[simp] theorem State.swapExchange_cmt (s : State) : (s.swapExchange).cmt = s.cmt := rfl
@[simp] theorem State.swapExchange_buf0 (s : State) : (s.swapExchange).buf0 = s.buf0 := rfl
@[simp] theorem State.swapExchange_buf1 (s : State) : (s.swapExchange).buf1 = s.buf1 := rfl
@[simp] theorem State.swapExchange_front (s : State) : (s.swapExchange).front = !s.front := rfl
@[simp] theorem State.swapExchange_running (s : State) : (s.swapExchange).running = s.running := rfl
@[simp] theorem State.swapExchange_parked (s : State) : (s.swapExchange).parked = s.parked := rfl
@[simp] theorem State.swapExchange_swapPending (s : State) : (s.swapExchange).swapPending = false := rfl
@[simp] theorem State.swapExchange_swapGen (s : State) : (s.swapExchange).swapGen = s.swapGen + 1#32 := rfl
@[simp] theorem State.swapExchange_disposing (s : State) : (s.swapExchange).disposing = s.disposing := rfl
@[simp] theorem State.swapExchange_disposed (s : State) : (s.swapExchange).disposed = s.disposed := rfl
@[simp] theorem State.swapExchange_fault (s : State) : (s.swapExchange).fault = s.fault := rfl
@[simp] theorem State.swapExchange_baseNs (s : State) : (s.swapExchange).baseNs = s.baseNs := rfl
@[simp] theorem State.swapExchange_measureArmed (s : State) : (s.swapExchange).measureArmed = s.measureArmed := rfl
@[simp] theorem State.swapExchange_frameTimeNs (s : State) : (s.swapExchange).frameTimeNs = s.frameTimeNs := rfl
@[simp] theorem State.swapExchange_frameTimeValid (s : State) : (s.swapExchange).frameTimeValid = s.frameTimeValid := rfl
@[simp] theorem State.swapExchange_out (s : State) : (s.swapExchange).out = s.out := rfl
@[simp] theorem State.swapExchange_linesHeld (s : State) : (s.swapExchange).linesHeld = s.linesHeld := rfl
@[simp] theorem State.swapExchange_phase (s : State) : (s.swapExchange).phase = s.phase := rfl
@[simp] theorem State.swapExchange_curH (s : State) : (s.swapExchange).curH = s.curH := rfl
@[simp] theorem State.swapExchange_curI (s : State) : (s.swapExchange).curI = s.curI := rfl
@[simp] theorem State.swapExchange_curC (s : State) : (s.swapExchange).curC = s.curC := rfl
@[simp] theorem State.swapExchange_latB (s : State) : (s.swapExchange).latB = s.latB := rfl
@[simp] theorem State.swapExchange_t0 (s : State) : (s.swapExchange).t0 = s.t0 := rfl
@[simp] theorem State.swapExchange_tm0 (s : State) : (s.swapExchange).tm0 = s.tm0 := rfl
@[simp] theorem State.swapExchange_measActive (s : State) : (s.swapExchange).measActive = s.measActive := rfl
@[simp] theorem State.swapExchange_hosts (s : State) : (s.swapExchange).hosts = s.hosts := rfl
@[simp] theorem State.swapExchange_clockLast (s : State) : (s.swapExchange).clockLast = s.clockLast := rfl
@[simp] theorem State.swapExchange_clockDraws (s : State) : (s.swapExchange).clockDraws = s.clockDraws := rfl
@[simp] theorem State.swapExchange_clockReads (s : State) : (s.swapExchange).clockReads = s.clockReads := rfl
@[simp] theorem State.swapExchange_turns (s : State) : (s.swapExchange).turns = s.turns := rfl
@[simp] theorem State.swapExchange_turnsTaken (s : State) : (s.swapExchange).turnsTaken = s.turnsTaken := rfl
@[simp] theorem State.swapExchange_issuer (s : State) : (s.swapExchange).issuer = s.issuer := rfl
@[simp] theorem State.swapExchange_trace (s : State) : (s.swapExchange).trace = s.trace := rfl

/-! ### `State.measureStart`: the measurement start of S1 (R117); the fields it may change are in `State.measureStart_cases` -/

@[simp] theorem State.measureStart_width (s : State) : s.measureStart.width = s.width := by unfold State.measureStart; split <;> rfl
@[simp] theorem State.measureStart_rows (s : State) : s.measureStart.rows = s.rows := by unfold State.measureStart; split <;> rfl
@[simp] theorem State.measureStart_pinmap (s : State) : s.measureStart.pinmap = s.pinmap := by unfold State.measureStart; split <;> rfl
@[simp] theorem State.measureStart_gamma (s : State) : s.measureStart.gamma = s.gamma := by unfold State.measureStart; split <;> rfl
@[simp] theorem State.measureStart_rowaddr (s : State) : s.measureStart.rowaddr = s.rowaddr := by unfold State.measureStart; split <;> rfl
@[simp] theorem State.measureStart_cmt (s : State) : s.measureStart.cmt = s.cmt := by unfold State.measureStart; split <;> rfl
@[simp] theorem State.measureStart_buf0 (s : State) : s.measureStart.buf0 = s.buf0 := by unfold State.measureStart; split <;> rfl
@[simp] theorem State.measureStart_buf1 (s : State) : s.measureStart.buf1 = s.buf1 := by unfold State.measureStart; split <;> rfl
@[simp] theorem State.measureStart_front (s : State) : s.measureStart.front = s.front := by unfold State.measureStart; split <;> rfl
@[simp] theorem State.measureStart_running (s : State) : s.measureStart.running = s.running := by unfold State.measureStart; split <;> rfl
@[simp] theorem State.measureStart_parked (s : State) : s.measureStart.parked = s.parked := by unfold State.measureStart; split <;> rfl
@[simp] theorem State.measureStart_swapPending (s : State) : s.measureStart.swapPending = s.swapPending := by unfold State.measureStart; split <;> rfl
@[simp] theorem State.measureStart_swapGen (s : State) : s.measureStart.swapGen = s.swapGen := by unfold State.measureStart; split <;> rfl
@[simp] theorem State.measureStart_disposing (s : State) : s.measureStart.disposing = s.disposing := by unfold State.measureStart; split <;> rfl
@[simp] theorem State.measureStart_disposed (s : State) : s.measureStart.disposed = s.disposed := by unfold State.measureStart; split <;> rfl
@[simp] theorem State.measureStart_fault (s : State) : s.measureStart.fault = s.fault := by unfold State.measureStart; split <;> rfl
@[simp] theorem State.measureStart_baseNs (s : State) : s.measureStart.baseNs = s.baseNs := by unfold State.measureStart; split <;> rfl
@[simp] theorem State.measureStart_frameTimeNs (s : State) : s.measureStart.frameTimeNs = s.frameTimeNs := by unfold State.measureStart; split <;> rfl
@[simp] theorem State.measureStart_frameTimeValid (s : State) : s.measureStart.frameTimeValid = s.frameTimeValid := by unfold State.measureStart; split <;> rfl
@[simp] theorem State.measureStart_out (s : State) : s.measureStart.out = s.out := by unfold State.measureStart; split <;> rfl
@[simp] theorem State.measureStart_linesHeld (s : State) : s.measureStart.linesHeld = s.linesHeld := by unfold State.measureStart; split <;> rfl
@[simp] theorem State.measureStart_phase (s : State) : s.measureStart.phase = s.phase := by unfold State.measureStart; split <;> rfl
@[simp] theorem State.measureStart_curH (s : State) : s.measureStart.curH = s.curH := by unfold State.measureStart; split <;> rfl
@[simp] theorem State.measureStart_curI (s : State) : s.measureStart.curI = s.curI := by unfold State.measureStart; split <;> rfl
@[simp] theorem State.measureStart_curC (s : State) : s.measureStart.curC = s.curC := by unfold State.measureStart; split <;> rfl
@[simp] theorem State.measureStart_latB (s : State) : s.measureStart.latB = s.latB := by unfold State.measureStart; split <;> rfl
@[simp] theorem State.measureStart_t0 (s : State) : s.measureStart.t0 = s.t0 := by unfold State.measureStart; split <;> rfl
@[simp] theorem State.measureStart_hosts (s : State) : s.measureStart.hosts = s.hosts := by unfold State.measureStart; split <;> rfl
@[simp] theorem State.measureStart_turns (s : State) : s.measureStart.turns = s.turns := by unfold State.measureStart; split <;> rfl
@[simp] theorem State.measureStart_turnsTaken (s : State) : s.measureStart.turnsTaken = s.turnsTaken := by unfold State.measureStart; split <;> rfl
@[simp] theorem State.measureStart_issuer (s : State) : s.measureStart.issuer = s.issuer := by unfold State.measureStart; split <;> rfl
@[simp] theorem State.measureStart_trace (s : State) : s.measureStart.trace = s.trace := by unfold State.measureStart; split <;> rfl

/-! ### `State.measureEnd`: the measurement end of S14 (R130); the fields it may change are in `State.measureEnd_cases` -/

@[simp] theorem State.measureEnd_width (s : State) : s.measureEnd.width = s.width := by unfold State.measureEnd; split <;> rfl
@[simp] theorem State.measureEnd_rows (s : State) : s.measureEnd.rows = s.rows := by unfold State.measureEnd; split <;> rfl
@[simp] theorem State.measureEnd_pinmap (s : State) : s.measureEnd.pinmap = s.pinmap := by unfold State.measureEnd; split <;> rfl
@[simp] theorem State.measureEnd_gamma (s : State) : s.measureEnd.gamma = s.gamma := by unfold State.measureEnd; split <;> rfl
@[simp] theorem State.measureEnd_rowaddr (s : State) : s.measureEnd.rowaddr = s.rowaddr := by unfold State.measureEnd; split <;> rfl
@[simp] theorem State.measureEnd_cmt (s : State) : s.measureEnd.cmt = s.cmt := by unfold State.measureEnd; split <;> rfl
@[simp] theorem State.measureEnd_buf0 (s : State) : s.measureEnd.buf0 = s.buf0 := by unfold State.measureEnd; split <;> rfl
@[simp] theorem State.measureEnd_buf1 (s : State) : s.measureEnd.buf1 = s.buf1 := by unfold State.measureEnd; split <;> rfl
@[simp] theorem State.measureEnd_front (s : State) : s.measureEnd.front = s.front := by unfold State.measureEnd; split <;> rfl
@[simp] theorem State.measureEnd_running (s : State) : s.measureEnd.running = s.running := by unfold State.measureEnd; split <;> rfl
@[simp] theorem State.measureEnd_parked (s : State) : s.measureEnd.parked = s.parked := by unfold State.measureEnd; split <;> rfl
@[simp] theorem State.measureEnd_swapPending (s : State) : s.measureEnd.swapPending = s.swapPending := by unfold State.measureEnd; split <;> rfl
@[simp] theorem State.measureEnd_swapGen (s : State) : s.measureEnd.swapGen = s.swapGen := by unfold State.measureEnd; split <;> rfl
@[simp] theorem State.measureEnd_disposing (s : State) : s.measureEnd.disposing = s.disposing := by unfold State.measureEnd; split <;> rfl
@[simp] theorem State.measureEnd_disposed (s : State) : s.measureEnd.disposed = s.disposed := by unfold State.measureEnd; split <;> rfl
@[simp] theorem State.measureEnd_fault (s : State) : s.measureEnd.fault = s.fault := by unfold State.measureEnd; split <;> rfl
@[simp] theorem State.measureEnd_baseNs (s : State) : s.measureEnd.baseNs = s.baseNs := by unfold State.measureEnd; split <;> rfl
@[simp] theorem State.measureEnd_measureArmed (s : State) : s.measureEnd.measureArmed = s.measureArmed := by unfold State.measureEnd; split <;> rfl
@[simp] theorem State.measureEnd_out (s : State) : s.measureEnd.out = s.out := by unfold State.measureEnd; split <;> rfl
@[simp] theorem State.measureEnd_linesHeld (s : State) : s.measureEnd.linesHeld = s.linesHeld := by unfold State.measureEnd; split <;> rfl
@[simp] theorem State.measureEnd_phase (s : State) : s.measureEnd.phase = s.phase := by unfold State.measureEnd; split <;> rfl
@[simp] theorem State.measureEnd_curH (s : State) : s.measureEnd.curH = s.curH := by unfold State.measureEnd; split <;> rfl
@[simp] theorem State.measureEnd_curI (s : State) : s.measureEnd.curI = s.curI := by unfold State.measureEnd; split <;> rfl
@[simp] theorem State.measureEnd_curC (s : State) : s.measureEnd.curC = s.curC := by unfold State.measureEnd; split <;> rfl
@[simp] theorem State.measureEnd_latB (s : State) : s.measureEnd.latB = s.latB := by unfold State.measureEnd; split <;> rfl
@[simp] theorem State.measureEnd_t0 (s : State) : s.measureEnd.t0 = s.t0 := by unfold State.measureEnd; split <;> rfl
@[simp] theorem State.measureEnd_tm0 (s : State) : s.measureEnd.tm0 = s.tm0 := by unfold State.measureEnd; split <;> rfl
@[simp] theorem State.measureEnd_hosts (s : State) : s.measureEnd.hosts = s.hosts := by unfold State.measureEnd; split <;> rfl
@[simp] theorem State.measureEnd_turns (s : State) : s.measureEnd.turns = s.turns := by unfold State.measureEnd; split <;> rfl
@[simp] theorem State.measureEnd_turnsTaken (s : State) : s.measureEnd.turnsTaken = s.turnsTaken := by unfold State.measureEnd; split <;> rfl
@[simp] theorem State.measureEnd_issuer (s : State) : s.measureEnd.issuer = s.issuer := by unfold State.measureEnd; split <;> rfl
@[simp] theorem State.measureEnd_trace (s : State) : s.measureEnd.trace = s.trace := by unfold State.measureEnd; split <;> rfl

/-- What the measurement start can do: nothing when not armed, else one clock read (R117). -/
theorem State.measureStart_cases (s : State) :
    (s.measureArmed = false ∧ s.measureStart = s) ∨
    (s.measureArmed = true ∧ s.measureStart =
      { s.clockTick with measActive := true, measureArmed := false, tm0 := s.clockValue }) := by
  unfold State.measureStart
  cases s.measureArmed <;> simp

/-- What the measurement end can do: nothing when no cycle is measured, else one clock read (R130). -/
theorem State.measureEnd_cases (s : State) :
    (s.measActive = false ∧ s.measureEnd = s) ∨
    (s.measActive = true ∧ s.measureEnd =
      { s.clockTick with frameTimeNs := s.clockValue - s.tm0, frameTimeValid := true, measActive := false }) := by
  unfold State.measureEnd
  cases s.measActive <;> simp

end Sys2Proof.Machine
end

