-- ==== Sys2Proof/Laws/Ops.lean ====
section
/-! SUPPORT. For each shared operation, once, everything it can do: host agents' records, the lifecycle check, recorded
faults, the clock, the later steps of the blocking commands, the exchange, the micro-steps that can stop, and which
steps the machine can take. The provers cite these instead of unfolding. -/

namespace Sys2Proof.Machine

/-! ### Host agents' records -/

/-- A command's end gives its agent the response and makes it READY. -/
theorem State.complete_hosts_self (s : State) (k : Nat) (v : Word) :
    (s.complete k v).hosts[k]? = (s.hosts[k]?).map (fun a => { a with hphase := .ready, resp := some v }) := by simp

/-- A command's end leaves every other agent alone. -/
theorem State.complete_hosts_ne (s : State) {j k : Nat} (h : k ≠ j) (v : Word) :
    (s.complete k v).hosts[j]? = s.hosts[j]? := by simp [h]

theorem State.respOf_complete (s : State) {k : Nat} (hk : k < s.hosts.length) (v : Word) :
    (s.complete k v).respOf k = some v := by simp [State.respOf, hk]

theorem State.respOf_raiseFault (s : State) {k : Nat} (hk : k < s.hosts.length) (e : FaultCode) :
    (s.raiseFault k e).respOf k = some 0#64 := by simp [State.respOf, hk]

theorem State.phaseOf_setPhase (s : State) {k : Nat} (hk : k < s.hosts.length) (p : HPhase) :
    (s.setPhase k p).phaseOf k = some p := by simp [State.phaseOf, hk]

theorem State.phaseOf_complete (s : State) {k : Nat} (hk : k < s.hosts.length) (v : Word) :
    (s.complete k v).phaseOf k = some .ready := by simp [State.phaseOf, hk]

/-! ### The buffers -/

theorem State.buf_setBuf_self (s : State) (p : Bool) (m : Memory) : (s.setBuf p m).buf p = m := by
  cases p <;> simp [State.buf]

theorem State.buf_setBuf_ne (s : State) {p q : Bool} (h : p ≠ q) (m : Memory) : (s.setBuf p m).buf q = s.buf q := by
  cases p <;> cases q <;> simp_all [State.buf]

/-- The back role is never the front buffer (R18). -/
theorem State.back_ne_front (s : State) : s.back ≠ s.front := by simp [State.back]

theorem State.buf_front_setBuf_back (s : State) (m : Memory) : (s.setBuf s.back m).buf s.front = s.buf s.front :=
  s.buf_setBuf_ne s.back_ne_front m

/-! ### The lifecycle check and recorded faults -/

/-- After the lifecycle check (R166(3)): the fault when teardown has begun, else the command's own effect. -/
theorem State.unlessTornDown_cases {s t next : State} {k : Nat} (h : s.unlessTornDown k next = .next t) :
    (s.tornDown = true ∧ t = s.raiseFault k .useAfterDispose) ∨ (s.tornDown = false ∧ t = next) := by
  unfold State.unlessTornDown at h
  cases ht : s.tornDown <;> simp_all

theorem State.unlessTornDown_pass {s next : State} {k : Nat} (h : s.tornDown = false) :
    s.unlessTornDown k next = .next next := by simp [State.unlessTornDown, h]

theorem State.unlessTornDown_stop {s next : State} {k : Nat} (h : s.tornDown = true) :
    s.unlessTornDown k next = .next (s.raiseFault k .useAfterDispose) := by simp [State.unlessTornDown, h]

/-- The first fault is kept (R165). -/
theorem recordFault_kept {old : Byte} (h : old ≠ 0#8) (c : FaultCode) : recordFault old c = old := by
  simp [recordFault, h]

theorem recordFault_first (c : FaultCode) : recordFault 0#8 c = c.code := by simp [recordFault]

/-! ### The clock -/

/-- A clock read never decreases (R41). -/
theorem State.clockLast_le_value (s : State) : s.clockLast.toNat ≤ s.clockValue.toNat := by
  unfold State.clockValue
  split <;> omega

/-- A clock read is the draw whenever the draw is monotone (R41). -/
theorem State.clockValue_of_le {s : State} (h : s.clockLast.toNat ≤ s.nextDraw.toNat) : s.clockValue = s.nextDraw := by
  simp [State.clockValue]
  omega

/-- The free clock grows without bound (R41): from every draw on, some draw is at least `t`. -/
theorem clockDraw_unbounded (t : Word) (n : Nat) :
    ∃ m, n ≤ m ∧ t.toNat ≤ (Config.clockDraw m).toNat := by
  refine ⟨max n Config.clockHorizon, Nat.le_max_left _ _, ?_⟩
  have h : ¬ max n Config.clockHorizon < Config.clockHorizon := by omega
  have ht := t.isLt
  simp only [Config.clockDraw, if_neg h]
  simp
  omega

/-! ### Output transactions -/

theorem applyLines_getLsbD (o x y : Lines) (k : Nat) (hk : k < 14) :
    (applyLines o x y).getLsbD k = ((o.getLsbD k && !y.getLsbD k) || x.getLsbD k) := by
  simp [applyLines, hk]

/-! ### Views of the lines -/

/-- After the release the block drives no line (R37). -/
theorem State.drivenLines_released {s : State} (h : s.linesHeld = false) : s.drivenLines = 0#14 := by
  simp [State.drivenLines, h]

/-- While the lines are held the block drives those it uses (R35, R184). -/
theorem State.drivenLines_held {s : State} (h : s.linesHeld = true) : s.drivenLines = usedLines s.hr := by
  simp [State.drivenLines, h]

/-- A line that the block does not drive has no level of the block's. -/
theorem State.pinLevel_undriven {s : State} {k : Nat} (h : s.drivenLines.getLsbD k = false) : s.pinLevel k = none := by
  simp [State.pinLevel, h]

/-- After the release the display is the platform's (R37, R196). -/
theorem State.shown_released {s : State} (h : s.linesHeld = false) : s.shown = .platform := by simp [State.shown, h]

/-! ### Blocking commands -/

theorem swapPostStep_held {k : Nat} {s : State} (h : s.swapPending = true) : swapPostStep k s = .next s := by
  simp [swapPostStep, h]

theorem swapWaitStep_held {k : Nat} {s : State} : swapWaitStep k s.swapGen s = .next s := by
  simp [swapWaitStep]

/-- What step 1 of `START` can do (R141). -/
theorem startStep_cases (k : Nat) (s : State) :
    (s.running = true ∧ startStep k s = s.complete k 0#64) ∨
    (s.running = false ∧ s.parked = true ∧ startStep k s =
      { s with running := true, parked := false, curH := 0#5, curI := 0#3, curC := 0#15, phase := .s1 }.complete k 0#64) ∨
    (s.running = false ∧ s.parked = false ∧ startStep k s = s.setPhase k .startWait) := by
  unfold startStep
  cases s.running <;> cases s.parked <;> simp

/-- What `START_WAIT` can do (R143). -/
theorem startWaitStep_cases {k : Nat} {s t : State} (h : startWaitStep k s = .next t) :
    (s.disposing = true ∧ t = s.raiseFault k .useAfterDispose) ∨
    (s.disposing = false ∧ s.isStopping = true ∧ t = s) ∨
    (s.disposing = false ∧ s.isStopping = false ∧ t = startStep k (s.setPhase k .ready)) := by
  unfold startWaitStep at h
  cases hd : s.disposing <;> cases hs : s.isStopping <;> simp_all

/-! ### The micro-steps that can stop -/

theorem scanS2_cases {s t : State} (h : scanS2 s = .next t) :
    ∃ m, s.rowaddr[s.curH.toNat]? = some m ∧ t = { s with phase := .s3 }.outWrite m 0#14 := by
  unfold scanS2 at h
  split at h
  · rename_i m hm
    exact ⟨m, hm, by injection h with h; exact h.symm⟩
  · exact absurd h (by simp)

theorem scanS3_cases {s t : State} (h : scanS3 s = .next t) :
    ∃ m, s.rowaddr[s.curH.toNat]? = some m ∧
      t = { s with phase := .s4, curI := 0#3, curC := 0#15 }.outWrite 0#14 (addrGroup s.hr &&& ~~~ m) := by
  unfold scanS3 at h
  split at h
  · rename_i m hm
    exact ⟨m, hm, by injection h with h; exact h.symm⟩
  · exact absurd h (by simp)

theorem scanS4_cases {s t : State} (h : scanS4 s = .next t) :
    s.scanOffset < s.size ∧
      t = { s with phase := .s5 }.outWrite s.scanMask (maskColor &&& ~~~ s.scanMask) := by
  unfold scanS4 at h
  split at h
  · rename_i hlt
    exact ⟨hlt, by injection h with h; exact h.symm⟩
  · exact absurd h (by simp)

/-- What a swap check can do (R129). -/
theorem scanS13_cases {s t : State} (h : scanS13 s = .next t) :
    (s.curH = 0#5 ∧ s.swapPending = true ∧ t = { s.swapExchange with phase := .s14 }) ∨
    (¬ (s.curH = 0#5 ∧ s.swapPending = true) ∧ t = { s with phase := .s14 }) := by
  unfold scanS13 at h
  injection h with h
  by_cases hc : s.curH = 0#5 ∧ s.swapPending = true
  · left; rw [if_pos hc] at h; exact ⟨hc.1, hc.2, h.symm⟩
  · right; rw [if_neg hc] at h; exact ⟨hc, h.symm⟩

/-! ### Steps of the machine -/

/-- What a turn of a host agent can do: nothing for an agent that does not exist, else its record's step. -/
theorem hostStep_cases {k : Nat} {s t : State} (h : hostStep k s = .next t) :
    (s.hosts[k]? = none ∧ t = s) ∨ ∃ a, s.hosts[k]? = some a ∧ hostAgentStep k a s = .next t := by
  unfold hostStep at h
  split at h
  · rename_i a ha
    exact Or.inr ⟨a, ha, h⟩
  · rename_i ha
    injection h with h
    exact Or.inl ⟨ha, h.symm⟩

/-- What the turn of an existing host agent can do (R40): the issue of a word, or the next step of the blocking command it
is in. -/
theorem hostAgentStep_cases {k : Nat} {a : HostAgent} {s t : State} (h : hostAgentStep k a s = .next t) :
    (a.hphase = .ready ∧ a.cmds = [] ∧ t = s) ∨
    (∃ w ws, a.hphase = .ready ∧ a.cmds = w :: ws ∧ issueWord k w s = .next t) ∨
    (a.hphase = .swapPost ∧ swapPostStep k s = .next t) ∨
    (a.hphase = .swapWait ∧ swapWaitStep k a.g0 s = .next t) ∨
    (a.hphase = .startWait ∧ startWaitStep k s = .next t) ∨
    (a.hphase = .dispWaitPark ∧ dispWaitParkStep k s = .next t) ∨
    (a.hphase = .dispRelease ∧ dispReleaseStep k s = .next t) ∨
    (a.hphase = .dispWaitOther ∧ dispWaitOtherStep k s = .next t) := by
  unfold hostAgentStep at h
  cases hp : a.hphase <;> simp only [hp] at h
  case ready =>
    cases hc : a.cmds with
    | nil => rw [hc] at h; injection h with h; exact Or.inl ⟨rfl, rfl, h.symm⟩
    | cons w ws => rw [hc] at h; exact Or.inr (Or.inl ⟨w, ws, rfl, rfl, h⟩)
  all_goals simp [h]

/-- What the issue of a word can do (R77): the command's first step, or the recorded decode fault. -/
theorem issueWord_cases {k : Nat} {w : Word} {s t : State} (h : issueWord k w s = .next t) :
    (∃ i, decode w = .ok i ∧ exec i (s.issue k) = .next t) ∨
    (∃ e, decode w = .error e ∧ t = (s.issue k).raiseFault k (faultOfDecode e)) := by
  unfold issueWord at h
  split at h
  · rename_i i hi
    exact Or.inl ⟨i, hi, h⟩
  · rename_i e he
    injection h with h
    exact Or.inr ⟨e, he, h.symm⟩

/-- One step is one turn of one agent (R57). -/
theorem step_cases {s t : State} (h : step s = .next t) :
    (s.nextAgent = .engine ∧ engineStep s.endTurn = .next t) ∨
    ∃ k, s.nextAgent = .host k ∧ hostStep k s.endTurn = .next t := by
  have h' : agentStep s.nextAgent s.endTurn = .next t := h
  cases ha : s.nextAgent with
  | engine => rw [ha] at h'; exact Or.inl ⟨rfl, h'⟩
  | host k => rw [ha] at h'; exact Or.inr ⟨k, rfl, h'⟩

end Sys2Proof.Machine
end

