-- ==== Sys2Proof/Laws/Effects.lean ====
section
/-! SUPPORT. Inversion, once and for all: every effect the first step of a command can have, every effect a turn of a host
agent can have, and every effect a turn of the engine can have. A claim about every step is a case analysis over these. -/

namespace Sys2Proof.Machine

/-! ### Output writes with one mask -/

theorem applyLines_assert (o x : Lines) : applyLines o x 0#14 = o ||| x := by
  unfold applyLines
  congr 1
  ext k hk
  interval_cases k <;> simp

theorem applyLines_clear (o y : Lines) : applyLines o 0#14 y = o &&& ~~~ y := by
  simp [applyLines]

/-! ### Commands -/

/-- What the first step of a command can do to the block (R92 to R157). -/
inductive ExecEffect (s : State) : State → Prop
  /-- it answers and changes nothing else -/
  | answer (v : Word) : ExecEffect s (s.complete s.issuer v)
  /-- it records a fault -/
  | faulted (c : FaultCode) : ExecEffect s (s.raiseFault s.issuer c)
  /-- `SETPIXEL` in bounds -/
  | pixel (col row : Int) (gr gg gb : Byte) : s.tornDown = false → s.inBounds col row = true →
      ExecEffect s
        ((s.setBuf s.back (writePixel (s.buf s.back) (s.pixelBase col row) (s.isUpper row) gr gg gb)).complete
          s.issuer 0#64)
  /-- `FILL` -/
  | filled (gr gg gb : Byte) : s.tornDown = false →
      ExecEffect s ((s.setBuf s.back (fillMemory (s.buf s.back) s.size gr gg gb)).complete s.issuer 0#64)
  /-- `REQSWAP` -/
  | requested : s.tornDown = false → ExecEffect s (s.setPhase s.issuer .swapPost)
  /-- `START` -/
  | started : s.tornDown = false → ExecEffect s (startStep s.issuer s)
  /-- `STOP` -/
  | stopped : s.tornDown = false → ExecEffect s ({ s with running := false }.complete s.issuer 0#64)
  /-- `DISPOSE` while another agent disposes -/
  | waitsOther : s.disposed = false → s.disposing = true → ExecEffect s (s.setPhase s.issuer .dispWaitOther)
  /-- `DISPOSE`, the first -/
  | disposes : s.disposed = false → s.disposing = false →
      ExecEffect s ({ s with disposing := true, running := false }.setPhase s.issuer .dispWaitPark)
  /-- `SETBASE` -/
  | based (ns : U32) : s.tornDown = false → ExecEffect s ({ s with baseNs := ns }.complete s.issuer 0#64)
  /-- `MEASURE` -/
  | armed : s.tornDown = false → ExecEffect s ({ s with measureArmed := true }.complete s.issuer 0#64)

theorem ExecEffect.ofCheck {s t next : State} (h : s.unlessTornDown s.issuer next = .next t)
    (hn : s.tornDown = false → ExecEffect s next) : ExecEffect s t := by
  rcases State.unlessTornDown_cases h with ⟨_, rfl⟩ | ⟨ht, rfl⟩
  · exact .faulted _
  · exact hn ht

/-- Every next state of `exec` is one of the effects. -/
theorem exec_effect {i : Instr} {s t : State} (h : exec i s = .next t) : ExecEffect s t := by
  cases i with
  | setpixel col row r g b =>
    refine ExecEffect.ofCheck h (fun ht => ?_)
    split
    · rename_i hb; exact .pixel _ _ _ _ _ ht hb
    · exact .answer _
  | fill r g b => exact ExecEffect.ofCheck h (fun ht => .filled _ _ _ ht)
  | decode sel col row =>
    refine ExecEffect.ofCheck h (fun _ => ?_)
    split
    · exact .answer _
    · exact .faulted _
  | readbyte sel off =>
    refine ExecEffect.ofCheck h (fun _ => ?_)
    split
    · exact .answer _
    · exact .faulted _
  | reqswap => exact ExecEffect.ofCheck h .requested
  | start => exact ExecEffect.ofCheck h .started
  | stop => exact ExecEffect.ofCheck h .stopped
  | dispose =>
    simp only [exec, execDispose] at h
    injection h with h
    subst h
    split
    · exact .answer _
    · split
      · exact .waitsOther (by simp_all) (by simp_all)
      · exact .disposes (by simp_all) (by simp_all)
  | setbase ns => exact ExecEffect.ofCheck h (.based ns)
  | getbase => exact ExecEffect.ofCheck h (fun _ => .answer _)
  | measure => exact ExecEffect.ofCheck h .armed
  | getframetime => exact ExecEffect.ofCheck h (fun _ => .answer _)
  | getwidth => exact ExecEffect.ofCheck h (fun _ => .answer _)
  | getheight => exact ExecEffect.ofCheck h (fun _ => .answer _)
  | getstatus =>
    simp only [exec, execGetstatus] at h
    injection h with h
    subst h
    exact .answer _

/-! ### Host agents -/

/-- What a turn of host agent `k` can do. -/
inductive HostEffect (k : Nat) (s : State) : State → Prop
  /-- it has no step, or its hold condition is not met -/
  | held : HostEffect k s s
  /-- it issues a word that decodes, and the command takes its first step -/
  | issued (a : HostAgent) (i : Instr) (t : State) : s.hosts[k]? = some a → a.hphase = .ready → a.cmds ≠ [] →
      ExecEffect (s.issue k) t → HostEffect k s t
  /-- it issues a word that does not decode -/
  | undecoded (a : HostAgent) (c : FaultCode) : s.hosts[k]? = some a → a.hphase = .ready → a.cmds ≠ [] →
      HostEffect k s ((s.issue k).raiseFault k c)
  /-- the post step of `REQSWAP` -/
  | posted (a : HostAgent) : s.hosts[k]? = some a → a.hphase = .swapPost → s.swapPending = false →
      HostEffect k s
        ({ s with swapPending := true }.modifyHost k (fun a => { a with g0 := s.swapGen, hphase := .swapWait }))
  /-- `REQSWAP` answers -/
  | swapped (a : HostAgent) : s.hosts[k]? = some a → a.hphase = .swapWait → s.swapGen ≠ a.g0 →
      HostEffect k s (s.complete k 0#64)
  /-- a held `START` meets teardown -/
  | startRefused (a : HostAgent) : s.hosts[k]? = some a → a.hphase = .startWait → s.disposing = true →
      HostEffect k s (s.raiseFault k .useAfterDispose)
  /-- a held `START` goes on -/
  | startAgain (a : HostAgent) : s.hosts[k]? = some a → a.hphase = .startWait → s.disposing = false →
      s.isStopping = false → HostEffect k s (startStep k (s.setPhase k .ready))
  /-- `DISPOSE` has seen the engine parked -/
  | parkSeen (a : HostAgent) : s.hosts[k]? = some a → a.hphase = .dispWaitPark → s.parked = true →
      HostEffect k s (s.setPhase k .dispRelease)
  /-- `DISPOSE` releases the lines -/
  | released (a : HostAgent) : s.hosts[k]? = some a → a.hphase = .dispRelease →
      HostEffect k s ({ s with linesHeld := false, disposed := true }.complete k 0#64)
  /-- a second `DISPOSE` answers -/
  | otherDone (a : HostAgent) : s.hosts[k]? = some a → a.hphase = .dispWaitOther → s.disposed = true →
      HostEffect k s (s.complete k 0#64)

/-- Every next state of a host agent's turn is one of the effects. -/
theorem hostStep_effect {k : Nat} {s t : State} (h : hostStep k s = .next t) : HostEffect k s t := by
  rcases hostStep_cases h with ⟨_, rfl⟩ | ⟨a, ha, h⟩
  · exact .held
  rcases hostAgentStep_cases h with ⟨_, _, rfl⟩ | ⟨w, ws, hp, hc, h⟩ | ⟨hp, h⟩ | ⟨hp, h⟩ | ⟨hp, h⟩ | ⟨hp, h⟩ | ⟨hp, h⟩ | ⟨hp, h⟩
  · exact .held
  · have hne : a.cmds ≠ [] := by simp [hc]
    rcases issueWord_cases h with ⟨i, _, h⟩ | ⟨e, _, rfl⟩
    · exact .issued a i t ha hp hne (exec_effect h)
    · exact .undecoded a _ ha hp hne
  · simp only [swapPostStep] at h
    injection h with h
    subst h
    split
    · exact .held
    · exact .posted a ha hp (by simp_all)
  · simp only [swapWaitStep] at h
    injection h with h
    subst h
    split
    · exact .held
    · rename_i hg; exact .swapped a ha hp hg
  · rcases startWaitStep_cases h with ⟨hd, rfl⟩ | ⟨_, _, rfl⟩ | ⟨hd, hs, rfl⟩
    · exact .startRefused a ha hp hd
    · exact .held
    · exact .startAgain a ha hp hd hs
  · simp only [dispWaitParkStep] at h
    injection h with h
    subst h
    split
    · rename_i hk; exact .parkSeen a ha hp hk
    · exact .held
  · simp only [dispReleaseStep] at h
    injection h with h
    subst h
    exact .released a ha hp
  · simp only [dispWaitOtherStep] at h
    injection h with h
    subst h
    split
    · rename_i hk; exact .otherDone a ha hp hk
    · exact .held

/-! ### The engine -/

/-- What a turn of the engine can do (R117 to R131), phase by phase. -/
inductive EngineEffect (s : State) : State → Prop
  | idle : s.phase = .idle → EngineEffect s s
  | blank : s.phase = .s1 →
      EngineEffect s ({ s.measureStart with latB := s.baseNs, phase := .s2 }.outWrite maskOe 0#14)
  | addrSet (m : Lines) : s.phase = .s2 → s.rowaddr[s.curH.toNat]? = some m →
      EngineEffect s ({ s with phase := .s3 }.outWrite m 0#14)
  | addrClr (m : Lines) : s.phase = .s3 → s.rowaddr[s.curH.toNat]? = some m →
      EngineEffect s ({ s with phase := .s4, curI := 0#3, curC := 0#15 }.outWrite 0#14 (addrGroup s.hr &&& ~~~ m))
  | color : s.phase = .s4 → s.scanOffset < s.size →
      EngineEffect s ({ s with phase := .s5 }.outWrite s.scanMask (maskColor &&& ~~~ s.scanMask))
  | clkHi : s.phase = .s5 → EngineEffect s ({ s with phase := .s6 }.outWrite maskClk 0#14)
  | nextColumn : s.phase = .s6 → s.moreColumns = true →
      EngineEffect s ({ s with curC := s.curC + 1#15, phase := .s4 }.outWrite 0#14 maskClk)
  | lastColumn : s.phase = .s6 → s.moreColumns = false →
      EngineEffect s ({ s with curC := 0#15, phase := .s7 }.outWrite 0#14 maskClk)
  | latchOn : s.phase = .s7 → EngineEffect s ({ s with phase := .s8 }.outWrite (maskOe ||| maskLat) 0#14)
  | latchOff : s.phase = .s8 → EngineEffect s ({ s with phase := .s9 }.outWrite 0#14 maskLat)
  | oeOff : s.phase = .s9 → EngineEffect s ({ s with phase := .s10 }.outWrite 0#14 maskOe)
  | holdStart : s.phase = .s10 → EngineEffect s { s.clockTick with t0 := s.clockValue, phase := .s11 }
  | holdOn : s.phase = .s11 → s.holdOver s.clockValue = false → EngineEffect s s.clockTick
  | nextPlane : s.phase = .s11 → s.holdOver s.clockValue = true → s.curI ≠ 7#3 →
      EngineEffect s { s.clockTick with curI := s.curI + 1#3, phase := .s4 }
  | lastPlane : s.phase = .s11 → s.holdOver s.clockValue = true → s.curI = 7#3 →
      EngineEffect s { s.clockTick with phase := .s12 }
  | advance : s.phase = .s12 →
      EngineEffect s { s with curH := BitVec.ofNat 5 ((s.curH.toNat + 1) % s.hr), phase := .s13 }
  | exchange : s.phase = .s13 → s.curH = 0#5 → s.swapPending = true →
      EngineEffect s { s.swapExchange with phase := .s14 }
  | noExchange : s.phase = .s13 → ¬ (s.curH = 0#5 ∧ s.swapPending = true) → EngineEffect s { s with phase := .s14 }
  | measured : s.phase = .s14 → EngineEffect s { s.measureEnd with phase := .s15 }
  | again : s.phase = .s15 → s.running = true → EngineEffect s { s with phase := .s1 }
  | parks : s.phase = .s15 → s.running = false → EngineEffect s { s with parked := true, phase := .idle }

/-- Every next state of the engine's turn is one of the effects. -/
theorem engineStep_effect {s t : State} (h : engineStep s = .next t) : EngineEffect s t := by
  unfold engineStep at h
  cases hp : s.phase <;> simp only [hp] at h
  case idle => injection h with h; subst h; exact .idle hp
  case s1 => simp only [scanS1] at h; injection h with h; subst h; exact .blank hp
  case s2 => obtain ⟨m, hm, rfl⟩ := scanS2_cases h; exact .addrSet m hp hm
  case s3 => obtain ⟨m, hm, rfl⟩ := scanS3_cases h; exact .addrClr m hp hm
  case s4 => obtain ⟨hlt, rfl⟩ := scanS4_cases h; exact .color hp hlt
  case s5 => simp only [scanS5] at h; injection h with h; subst h; exact .clkHi hp
  case s6 =>
    simp only [scanS6] at h
    injection h with h
    subst h
    cases hc : s.moreColumns
    · exact .lastColumn hp hc
    · exact .nextColumn hp hc
  case s7 => simp only [scanS7] at h; injection h with h; subst h; exact .latchOn hp
  case s8 => simp only [scanS8] at h; injection h with h; subst h; exact .latchOff hp
  case s9 => simp only [scanS9] at h; injection h with h; subst h; exact .oeOff hp
  case s10 => simp only [scanS10] at h; injection h with h; subst h; exact .holdStart hp
  case s11 =>
    simp only [scanS11] at h
    injection h with h
    subst h
    cases ho : s.holdOver s.clockValue
    · exact .holdOn hp ho
    · rw [if_pos rfl, State.endHold]
      split
      · rename_i hi; exact .lastPlane hp ho hi
      · rename_i hi; exact .nextPlane hp ho hi
  case s12 => simp only [scanS12] at h; injection h with h; subst h; exact .advance hp
  case s13 =>
    rcases scanS13_cases h with ⟨hh, hs, rfl⟩ | ⟨hn, rfl⟩
    · exact .exchange hp hh hs
    · exact .noExchange hp hn
  case s14 => simp only [scanS14] at h; injection h with h; subst h; exact .measured hp
  case s15 =>
    simp only [scanS15] at h
    injection h with h
    subst h
    split
    · rename_i hr; exact .again hp hr
    · rename_i hr; exact .parks hp (by simpa using hr)

end Sys2Proof.Machine
end

