-- ==== Sys2Proof/Laws/PerInstr.lean ====
section
/-! SUPPORT. The family `EncodedRow`: a command's word carries the opcode of its row and no reserved bit (R68 to R76),
one lemma per constructor. -/

namespace Sys2Proof.Laws

/-- The encoded word matches the command's row of the opcode table: its `OP` field is the row's code and no bit under
the row's reserved mask is set. -/
def EncodedRow.Statement (i : Instr) : Prop :=
  opField (encode i) = i.opcode.code ∧ encode i &&& i.opcode.format.resMask = 0#64

theorem encodeN_row (op : Byte) : opField (encodeN op) = op ∧ encodeN op &&& Format.N.resMask = 0#64 := by
  constructor <;> ext k hk <;> interval_cases k <;> simp [opField, encodeN, Format.resMask, placeField]

theorem encodeP_row (op : Byte) (col row : BitVec 16) (r g b : Byte) :
    opField (encodeP op col row r g b) = op ∧ encodeP op col row r g b &&& Format.P.resMask = 0#64 := by
  constructor
  · ext k hk
    interval_cases k <;> simp [opField, encodeP, placeField]
  · simp [Format.resMask]

theorem encodeF_row (op r g b : Byte) :
    opField (encodeF op r g b) = op ∧ encodeF op r g b &&& Format.F.resMask = 0#64 := by
  constructor <;> ext k hk <;> interval_cases k <;> simp [opField, encodeF, Format.resMask, placeField]

theorem encodeQ_row (op : Byte) (col row : BitVec 16) (sel : BitVec 1) :
    opField (encodeQ op col row sel) = op ∧ encodeQ op col row sel &&& Format.Q.resMask = 0#64 := by
  constructor <;> ext k hk <;> interval_cases k <;> simp [opField, encodeQ, Format.resMask, placeField]

theorem encodeB_row (op : Byte) (sel : BitVec 1) (off : U32) :
    opField (encodeB op sel off) = op ∧ encodeB op sel off &&& Format.B.resMask = 0#64 := by
  constructor <;> ext k hk <;> interval_cases k <;> simp [opField, encodeB, Format.resMask, placeField]

theorem encodeD_row (op : Byte) (ns : U32) :
    opField (encodeD op ns) = op ∧ encodeD op ns &&& Format.D.resMask = 0#64 := by
  constructor <;> ext k hk <;> interval_cases k <;> simp [opField, encodeD, Format.resMask, placeField]

theorem EncodedRow.setpixel (col row : Int) (r g b : Byte) : EncodedRow.Statement (.setpixel col row r g b) :=
  encodeP_row _ _ _ _ _ _
theorem EncodedRow.fill (r g b : Byte) : EncodedRow.Statement (.fill r g b) := encodeF_row _ _ _ _
theorem EncodedRow.decode (sel : Role) (col row : Int) : EncodedRow.Statement (.decode sel col row) :=
  encodeQ_row _ _ _ _
theorem EncodedRow.readbyte (sel : Role) (off : U32) : EncodedRow.Statement (.readbyte sel off) := encodeB_row _ _ _
theorem EncodedRow.reqswap : EncodedRow.Statement .reqswap := encodeN_row _
theorem EncodedRow.start : EncodedRow.Statement .start := encodeN_row _
theorem EncodedRow.stop : EncodedRow.Statement .stop := encodeN_row _
theorem EncodedRow.dispose : EncodedRow.Statement .dispose := encodeN_row _
theorem EncodedRow.setbase (ns : U32) : EncodedRow.Statement (.setbase ns) := encodeD_row _ _
theorem EncodedRow.getbase : EncodedRow.Statement .getbase := encodeN_row _
theorem EncodedRow.measure : EncodedRow.Statement .measure := encodeN_row _
theorem EncodedRow.getframetime : EncodedRow.Statement .getframetime := encodeN_row _
theorem EncodedRow.getwidth : EncodedRow.Statement .getwidth := encodeN_row _
theorem EncodedRow.getheight : EncodedRow.Statement .getheight := encodeN_row _
theorem EncodedRow.getstatus : EncodedRow.Statement .getstatus := encodeN_row _

end Sys2Proof.Laws
end

