-- ==== Sys2Proof/Tests/Slice0.lean ====
section
/-! SUPPORT. The model's own tests: well-formedness refuses each ill-formed coordinate, words written out from the
spec decode to their commands, single steps give the spec's vectors, and every statement with hypotheses has a state and
operands that meet them (its witness). Expected values are those of 30_encoding.md and 95_test_vectors.md, whose row a
test's docstring names. -/

set_option maxRecDepth 4000

namespace Sys2Proof.Tests

open Sys2Proof.Machine

/-! ### Well-formedness: what a command word cannot carry is refused -/

theorem test_wf_setpixel_col_low : (Instr.setpixel (-32769) 0 0 0 0).wellFormed = false := by decide
theorem test_wf_setpixel_col_high : (Instr.setpixel 32768 0 0 0 0).wellFormed = false := by decide
theorem test_wf_setpixel_row_low : (Instr.setpixel 0 (-32769) 0 0 0).wellFormed = false := by decide
theorem test_wf_setpixel_row_high : (Instr.setpixel 0 32768 0 0 0).wellFormed = false := by decide
theorem test_wf_decode_col_low : (Instr.decode .back (-32769) 0).wellFormed = false := by decide
theorem test_wf_decode_col_high : (Instr.decode .back 32768 0).wellFormed = false := by decide
theorem test_wf_decode_row_low : (Instr.decode .front 0 (-32769)).wellFormed = false := by decide
theorem test_wf_decode_row_high : (Instr.decode .front 0 32768).wellFormed = false := by decide
theorem test_wf_extremes : (Instr.setpixel (-32768) 32767 0 0 0).wellFormed = true := by decide

/-! ### Words of the spec and the commands they stand for (95_test_vectors section 2) -/

theorem test_decode_setpixel : decode 0x0100000000A50FF0#64 = .ok (.setpixel 0 0 0xA5 0x0F 0xF0) := by decide
theorem test_decode_setpixel_neg : decode 0x018000FFFF000000#64 = .ok (.setpixel (-32768) (-1) 0 0 0) := by decide
theorem test_decode_fill : decode 0x02000000008001FF#64 = .ok (.fill 0x80 0x01 0xFF) := by decide
theorem test_decode_decode : decode 0x0300010003000001#64 = .ok (.decode .front 1 3) := by decide
theorem test_decode_decode_neg : decode 0x030000FFFF000000#64 = .ok (.decode .back 0 (-1)) := by decide
theorem test_decode_readbyte : decode 0x040000010000001F#64 = .ok (.readbyte .front 31) := by decide
theorem test_decode_reqswap : decode 0x1000000000000000#64 = .ok .reqswap := by decide
theorem test_decode_start : decode 0x2000000000000000#64 = .ok .start := by decide
theorem test_decode_stop : decode 0x2100000000000000#64 = .ok .stop := by decide
theorem test_decode_dispose : decode 0x2200000000000000#64 = .ok .dispose := by decide
theorem test_decode_setbase : decode 0x30000000FFFFFFFF#64 = .ok (.setbase 0xFFFFFFFF) := by decide
theorem test_decode_getbase : decode 0x3100000000000000#64 = .ok .getbase := by decide
theorem test_decode_measure : decode 0x3200000000000000#64 = .ok .measure := by decide
theorem test_decode_getframetime : decode 0x3300000000000000#64 = .ok .getframetime := by decide
theorem test_decode_getwidth : decode 0x3400000000000000#64 = .ok .getwidth := by decide
theorem test_decode_getheight : decode 0x3500000000000000#64 = .ok .getheight := by decide
theorem test_decode_getstatus : decode 0x3600000000000000#64 = .ok .getstatus := by decide

/-- The words that name no command: the opcode is tested before the reserved bits. -/
theorem test_decode_illegal : ([0x0000000000000000#64, 0x0500000000000000#64, 0xFF00000000000000#64,
    0x1100000000000000#64, 0x3700000000000000#64, 0x0500000000000001#64].map decode) =
    List.replicate 6 (.error .illegalOpcode) := by decide

/-- The words with a reserved bit set, one per format that has reserved bits. -/
theorem test_decode_reserved : ([0x1000000000000001#64, 0x0201000000000000#64, 0x0300000000000002#64,
    0x0400000200000000#64, 0x3000000100000000#64, 0x36000000000000FF#64].map decode) =
    List.replicate 6 (.error .reservedBits) := by decide

/-- Format P has no reserved bit. -/
theorem test_decode_all_ones : decode 0x01FFFFFFFFFFFFFF#64 = .ok (.setpixel (-1) (-1) 255 255 255) := by decide

theorem test_encode_setpixel : encode (.setpixel 32767 0 1 2 3) = 0x017FFF0000010203#64 := by decide
theorem test_encode_readbyte : encode (.readbyte .front 4095) = 0x0400000100000FFF#64 := by decide

/-- The opcode table's numbering is the word's own: a table row's bits read as its command. -/
theorem test_table_word : decodeTableWord 64 0x3000000000000064 = some (.setbase 100) := by decide

/-! ### Lines of assembly (R83 to R85) -/

theorem test_asm_setpixel : assembleWord "SETPIXEL -1, 0, 255, 255, 255".toList = some 0x01FFFF0000FFFFFF#64 := by decide
theorem test_asm_hex : assembleWord "FILL 0x80, 0x01, 0xFF ; grey".toList = some 0x02000000008001FF#64 := by decide
theorem test_asm_pseudo : assembleLine "SETPIXEL24 3, 20, 0xFF00FF".toList = .command (.setpixel 3 20 255 0 255) := by
  decide
theorem test_asm_range : assembleLine "FILL 256, 0, 0".toList = .rejected := by decide
theorem test_asm_count : assembleLine "START 1".toList = .rejected := by decide

/-! ### A small panel: P2x4 of 95_test_vectors, with the test table `GAMMA[k] = k` -/

/-- The test configuration's table (95_test_vectors, ID-GAMMA). -/
def idGamma : Vector Byte 256 := Vector.ofFn (fun k => BitVec.ofNat 8 k.val)

/-- P2x4 with two host agents. -/
def p2x4 : Params where
  width := 2
  rows := 4
  numHosts := 2
  gamma := idGamma
  baseResetNs := 100#32
  outReset := 0#14
  pinmap := (List.range 14).map (fun k => ⟨k, false⟩)

/-- P2x4, fresh. -/
def small : State := State.fresh p2x4

/-- The state a step answers, if it answers one. -/
def stateOf (r : Result) : Option State :=
  match r with
  | .next t => some t
  | .fault _ => none
  | .refused _ => none

/-- The next state, and the old one where there is none. -/
def thenState (r : Result) (s : State) : State := (stateOf r).getD s

/-- Host agent 0 issues a command word. -/
def issueAt (s : State) (w : Nat) : State := thenState (step (s.withFetchWord 64 w)) s

/-- Host agent 0's response to a command word. -/
def answerAt (s : State) (w : Nat) : Option Word := (issueAt s w).respOf 0

/-- The engine's turn. -/
def engineAt (s : State) : State := thenState (engineStep s) s

theorem test_p2x4_legal : paramsLegal p2x4 = true := by decide

/-! ### Commands (95_test_vectors sections 3, 4, 6, 7, 8) -/

/-- V13 -/
theorem test_setpixel : ((issueAt small 0x0100010003FF00FF).buf1.map Prod.fst,
    (issueAt small 0x0100010003FF00FF).readByte true 24) = ([24, 25, 26, 27, 28, 29, 30, 31], 0x28#8) := by decide

/-- V9, on P2x4 -/
theorem test_setpixel_clipped : (issueAt small 0x017FFF0000010203).buf1 = [] := by decide

/-- F4: bytes 0, 1 and 7 of a pixel -/
theorem test_fill : (issueAt small 0x02000000008001FF).buf1.map Prod.snd =
    (List.range 4).flatMap (fun _ => [0x36#8, 0x24#8, 0x24#8, 0x24#8, 0x24#8, 0x24#8, 0x24#8, 0x2D#8]) := by decide

/-- V11 -/
theorem test_decode_pixel : answerAt (issueAt small 0x0100000000A50FF0) 0x0300000000000000 = some 0xA50FF0#64 := by
  decide

/-- V15 -/
theorem test_decode_bad : ((issueAt small 0x0300020000000000).fault, answerAt small 0x0300020000000000) =
    (4#8, some 0#64) := by decide

/-- V13 -/
theorem test_readbyte : answerAt (issueAt small 0x0100010003FF00FF) 0x0400000000000018 = some 0x28#64 := by decide

/-- V18 -/
theorem test_readbyte_bad : (issueAt small 0x0400000000000020).fault = 4#8 := by decide

/-- W1 -/
theorem test_reqswap : ((issueAt small 0x1000000000000000).phaseOf 0,
    (thenState (hostStep 0 (issueAt small 0x1000000000000000)) small).swapPending) = (some .swapPost, true) := by decide

/-- L-1 -/
theorem test_start : ((issueAt small 0x2000000000000000).running, (issueAt small 0x2000000000000000).parked,
    (issueAt small 0x2000000000000000).phase) = (true, false, .s1) := by decide

/-- L-3 -/
theorem test_start_stopping : (issueAt { small with parked := false, phase := .s5 } 0x2000000000000000).phaseOf 0 =
    some .startWait := by decide

/-- L-4 -/
theorem test_stop : ((issueAt { small with running := true, parked := false, phase := .s5 } 0x2100000000000000).running,
    answerAt { small with running := true, parked := false, phase := .s5 } 0x2100000000000000) = (false, some 0#64) := by
  decide

/-- L-8 -/
theorem test_dispose : ((issueAt { small with running := true, parked := false, phase := .s5 } 0x2200000000000000).phaseOf 0,
    (issueAt { small with running := true, parked := false, phase := .s5 } 0x2200000000000000).disposing) =
    (some .dispWaitPark, true) := by decide

/-- L-9 -/
theorem test_dispose_again : answerAt { small with disposing := true, disposed := true } 0x2200000000000000 =
    some 0#64 := by decide

/-- Q5 -/
theorem test_setbase : (issueAt small 0x3000000000000001).baseNs = 1#32 := by decide
theorem test_getbase : answerAt small 0x3100000000000000 = some 0x64#64 := by decide
theorem test_measure : (issueAt small 0x3200000000000000).measureArmed = true := by decide

/-- Q7 -/
theorem test_getframetime : answerAt small 0x3300000000000000 = some 0#64 := by decide
theorem test_getwidth : answerAt small 0x3400000000000000 = some 2#64 := by decide

/-- Q4 -/
theorem test_getheight : answerAt small 0x3500000000000000 = some 4#64 := by decide

/-- Q1 -/
theorem test_getstatus : answerAt small 0x3600000000000000 = some 2#64 := by decide

/-- Q10 -/
theorem test_illegal : answerAt (issueAt small 0x0500000000000000) 0x3600000000000000 = some 0x102#64 := by decide

/-- Q12 -/
theorem test_disposed_status : answerAt (issueAt { small with disposing := true, disposed := true } 0x0100000000010101)
    0x3600000000000000 = some 0x31A#64 := by decide

/-- Q14 -/
theorem test_reserved_first : (issueAt { small with disposing := true, disposed := true } 0x2200000000000001).fault =
    2#8 := by decide

/-! ### Micro-steps (95_test_vectors section 5) -/

/-- S-1 -/
theorem test_s1 : ((engineAt { small with phase := .s1 }).latB, (engineAt { small with phase := .s1 }).out) =
    (100#32, 0x2000#14) := by decide

/-- S-5 -/
theorem test_s3 : (engineAt { small with phase := .s3, out := 0x2040#14 }).out = 0x2000#14 := by decide

/-- S-8: the front byte is `0x28` -/
theorem test_s4 : (engineAt { small with phase := .s4, out := 0x0047#14, buf0 := [(0, 0x28#8)] }).out = 0x0068#14 := by
  decide

/-- S-11 -/
theorem test_s6 : ((engineAt { small with phase := .s6, curC := 1#15 }).curC,
    (engineAt { small with phase := .s6, curC := 1#15 }).phase) = (0#15, .s7) := by decide

/-- S-17 and S-18 -/
theorem test_s11 : ((engineAt { small with phase := .s11, latB := 100#32, curI := 3#3, t0 := 5000#64, clockDraws := [5799#64] }).phase,
    (engineAt { small with phase := .s11, latB := 100#32, curI := 3#3, t0 := 5000#64, clockDraws := [5800#64] }).phase) =
    (.s11, .s4) := by decide

/-- S-20: no overflow of the deadline `2^39 - 128` -/
theorem test_s11_wide : (engineAt { small with phase := .s11, latB := 0xFFFFFFFF#32, curI := 7#3, clockDraws := [0x7FFFFFFF7F#64] }).phase =
    .s11 := by decide

/-- S-23 -/
theorem test_s13 : ((engineAt { small with phase := .s13, swapPending := true }).front,
    (engineAt { small with phase := .s13, swapPending := true }).swapGen) = (true, 1#32) := by decide

/-- S-26 -/
theorem test_s14 : (engineAt { small with phase := .s14, measActive := true, tm0 := 1000#64, clockDraws := [30000#64] }).frameTimeNs =
    29000#64 := by decide

/-! ### Views of the lines (R34, R35, R37, R138) -/

/-- P2x4 acquires one address line: `B` to `E` have no level, `A` and `OE` have theirs. -/
theorem test_pinLevel : (List.range 14).map (fun k => (small.pinLevel k).isSome) =
    [true, true, true, true, true, true, true, false, false, false, false, true, true, true] := by decide

/-- After the release no line is driven and the display is the platform's. -/
theorem test_released : ({ small with linesHeld := false }.pinLevel 0, { small with linesHeld := false }.shown) =
    (none, .platform) := by decide

/-! ### A checker for the invariant, so that the witnesses below are evaluated -/

/-- `BufferOk`, checked. -/
def bufferCheck (size : Nat) (m : Memory) : Bool :=
  m.wf && m.within size && m.all (fun cell => decide (cell.2 &&& 0xC0#8 = 0#8))

/-- `State.FlagsOk`, checked. -/
def flagsCheck (s : State) : Bool :=
  !(s.running && s.parked) && decide (s.parked = true ↔ s.phase = .idle) && (!s.disposing || !s.running)
    && (!s.disposed || (s.disposing && s.parked)) && decide (s.linesHeld = !s.disposed) && decide (s.fault.toNat ≤ 4)

/-- `State.HostsOk`, checked. -/
def hostsCheck (s : State) : Bool :=
  decide (s.hosts.countP HostAgent.tearsDown = (if s.disposing && !s.disposed then 1 else 0))
    && s.hosts.all (fun a => !decide (a.hphase = .dispRelease) || s.parked)
    && s.hosts.all (fun a => !decide (a.hphase = .dispWaitOther) || s.disposing)
    && (!s.swapPending || s.hosts.any (fun a => decide (a.hphase = .swapWait) && decide (a.g0 = s.swapGen)))

/-- `State.GeometryOk`, `State.CursorsOk` and `State.ClockOk`, checked. -/
def rangeCheck (s : State) : Bool :=
  geometryOk s.width s.rows && decide (s.curH.toNat < s.hr) && decide (s.curC.toNat < s.width)
    && (!s.phase.pastColumns || decide (s.curC = 0#15)) && (!s.phase.pastPlanes || decide (s.curI = 7#3))
    && decide (s.t0.toNat ≤ s.clockLast.toNat) && decide (s.tm0.toNat ≤ s.clockLast.toNat)

/-- Everything of the invariant but the tables and the lines, checked. -/
def invCheck (s : State) : Bool :=
  rangeCheck s && bufferCheck s.size s.buf0 && bufferCheck s.size s.buf1 && flagsCheck s && hostsCheck s
    && decide (s.out &&& unusedAddr s.hr = 0#14)

theorem bufferCheck_sound {size : Nat} {m : Memory} (h : bufferCheck size m = true) : BufferOk size m := by
  simp only [bufferCheck, Bool.and_eq_true] at h
  refine ⟨h.1.1, h.1.2, fun off => ?_⟩
  obtain ⟨-, h⟩ := h
  induction m with
  | nil => simp [Memory.read, Memory.unlisted]
  | cons c m ih =>
    simp only [List.all_cons, Bool.and_eq_true, decide_eq_true_eq] at h
    obtain ⟨a, v⟩ := c
    simp only [Memory.read]
    split
    · exact h.1
    · exact ih h.2

theorem flagsCheck_sound {s : State} (h : flagsCheck s = true) : s.FlagsOk := by
  simp only [flagsCheck, Bool.and_eq_true, decide_eq_true_eq] at h
  obtain ⟨⟨⟨⟨⟨h1, h2⟩, h3⟩, h4⟩, h5⟩, h6⟩ := h
  refine ⟨?_, h2, by intro hd; simpa [hd] using h3, by intro hd; simpa [hd] using h4, h5, h6⟩
  rintro ⟨hr, hp⟩
  simp [hr, hp] at h1

theorem hostsCheck_sound {s : State} (h : hostsCheck s = true) : s.HostsOk := by
  unfold hostsCheck at h
  rw [Bool.and_eq_true, Bool.and_eq_true, Bool.and_eq_true] at h
  obtain ⟨⟨⟨h1, h2⟩, h3⟩, h4⟩ := h
  rw [List.all_eq_true] at h2 h3
  exact ⟨of_decide_eq_true h1, fun a ha hp => by simpa [hp] using h2 a ha, fun a ha hp => by simpa [hp] using h3 a ha,
    fun hp => by simpa [hp] using h4⟩

theorem small_tables : small.TablesOk := ⟨by decide, rfl, by decide⟩

/-- The invariant of a concrete state. -/
theorem inv_of_check {s : State} (ht : s.TablesOk) (h : invCheck s = true) (ho : s.OeOk)
    (ha : s.out &&& unusedAddr s.hr = 0#14 → s.AddrOk) : s.Inv := by
  simp only [invCheck, rangeCheck, Bool.and_eq_true, decide_eq_true_eq, Bool.or_eq_true, Bool.not_eq_true'] at h
  obtain ⟨⟨⟨⟨⟨⟨⟨⟨⟨⟨⟨g, c1⟩, c2⟩, c3⟩, c4⟩, k1⟩, k2⟩, b0⟩, b1⟩, f⟩, hh⟩, a⟩ := h
  refine ⟨g, ht, ⟨bufferCheck_sound b0, bufferCheck_sound b1⟩, ⟨c1, c2, ?_, ?_⟩, flagsCheck_sound f, hostsCheck_sound hh,
    ho, ha a, ⟨k1, k2⟩⟩
  · intro hp; simpa [hp] using c3
  · intro hp; simpa [hp] using c4

/-! ### Witness states: the small panel in the phases that the statements speak of -/

/-- The engine at a phase, with given lines and cursors. -/
def scanning (p : Phase) (out : Lines) (h : BitVec 5) (i : BitVec 3) (c : BitVec 15) : State :=
  { small with running := true, parked := false, phase := p, out := out, curH := h, curI := i, curC := c }

/-- The trace of a shifted and latched dark plane of the small panel, and the lines low after it. -/
def darkTrace : List Transaction :=
  [⟨0x3000#14, 0#14, 0#14⟩, ⟨0#14, 0x0800#14, 0x0800#14⟩, ⟨0x0800#14, 0#14, 0#14⟩, ⟨0#14, 0x0800#14, 0x0800#14⟩,
   ⟨0x0800#14, 0#14, 0#14⟩]

/-- Holding plane 7 of half-row 0, dark. -/
def holding : State := { scanning .s10 0#14 0 7 0 with trace := darkTrace }

/-- At the end of a measured cycle with a base of 1 ns, after 255 ns. -/
def measuring : State := { scanning .s14 0#14 0 7 0 with measActive := true, latB := 1#32, clockLast := 255#64 }

/-- Stopped while a cycle is on, with a base of 0. -/
def stopping : State := { scanning .s2 0x2000#14 0 0 0 with running := false }

/-- The same at the end of its cycle. -/
def stoppingLate : State := { scanning .s15 0#14 0 7 0 with running := false }

/-- Disposed. -/
def gone : State := { small with disposing := true, disposed := true, linesHeld := false }

theorem inv_small : (small).Inv :=
  inv_of_check small_tables (by decide) (trivial) (fun h => ⟨h, trivial⟩)

theorem inv_s2 : (scanning .s2 0x2040#14 0 7 0).Inv :=
  inv_of_check small_tables (by decide) (by show _ = _; decide) (fun h => ⟨h, trivial⟩)

theorem inv_s4 : (scanning .s4 0x2040#14 1 0 1).Inv :=
  inv_of_check small_tables (by decide) (by show _ = _; decide) (fun h => ⟨h, by show _ = _; decide⟩)

theorem inv_s5_first : (scanning .s5 0x2000#14 0 0 0).Inv :=
  inv_of_check small_tables (by decide) (by show _ = _; decide) (fun h => ⟨h, by show _ = _; decide⟩)

theorem inv_s5_last : (scanning .s5 0x2000#14 0 0 1).Inv :=
  inv_of_check small_tables (by decide) (by show _ = _; decide) (fun h => ⟨h, by show _ = _; decide⟩)

theorem inv_s9 : (scanning .s9 0x2000#14 0 0 0).Inv :=
  inv_of_check small_tables (by decide) (by show _ = _; decide) (fun h => ⟨h, by show _ = _; decide⟩)

theorem inv_holding : (holding).Inv :=
  inv_of_check small_tables (by decide) (by show _ = _; decide) (fun h => ⟨h, by show _ = _; decide⟩)

theorem inv_s12 : (scanning .s12 0#14 0 7 0).Inv :=
  inv_of_check small_tables (by decide) (by show _ = _; decide) (fun h => ⟨h, by show _ = _; decide⟩)

theorem inv_s13 : (scanning .s13 0#14 0 7 0).Inv :=
  inv_of_check small_tables (by decide) (by show _ = _; decide) (fun h => ⟨h, trivial⟩)

theorem inv_measuring : (measuring).Inv :=
  inv_of_check small_tables (by decide) (by show _ = _; decide) (fun h => ⟨h, trivial⟩)

theorem inv_stopping : (stopping).Inv :=
  inv_of_check small_tables (by decide) (by show _ = _; decide) (fun h => ⟨h, trivial⟩)

theorem inv_stoppingLate : (stoppingLate).Inv :=
  inv_of_check small_tables (by decide) (by show _ = _; decide) (fun h => ⟨h, trivial⟩)

theorem inv_gone : (gone).Inv :=
  inv_of_check small_tables (by decide) (trivial) (fun h => ⟨h, trivial⟩)

theorem inv_s2_change : ({ scanning .s2 0x2000#14 1 7 0 with turns := [.engine] }).Inv :=
  inv_of_check small_tables (by decide) (by show _ = _; decide) (fun h => ⟨h, trivial⟩)

theorem inv_s9_turn : ({ scanning .s9 0x2000#14 0 0 0 with turns := [.engine] }).Inv :=
  inv_of_check small_tables (by decide) (by show _ = _; decide) (fun h => ⟨h, by show _ = _; decide⟩)

theorem inv_holding_turn : ({ holding with turns := [.engine] }).Inv :=
  inv_of_check small_tables (by decide) (by show _ = _; decide) (fun h => ⟨h, by show _ = _; decide⟩)

theorem inv_gone_turn : ({ gone with turns := [.engine] }).Inv :=
  inv_of_check small_tables (by decide) (trivial) (fun h => ⟨h, trivial⟩)

theorem inv_measuring_turn : ({ measuring with turns := [.engine] }).Inv :=
  inv_of_check small_tables (by decide) (by show _ = _; decide) (fun h => ⟨h, trivial⟩)

/-! ### Witnesses: a state and operands that meet the hypotheses of each statement -/

/-- The small panel with host agent 1 in a phase of its command. -/
def hosting (p : HPhase) (s : State) : State := s.setPhase 1 p

/-- Host agent 1's record in a phase, with nothing issued. -/
def hostIn (p : HPhase) : HostAgent := { HostAgent.fresh with hphase := p }

theorem witness_DecodeOfEncode : (Instr.decode .front (-32768) 32767).wellFormed = true := by decide

theorem witness_EncodeOfDecode : decode 0x04000001FFFFFFFF#64 = .ok (.readbyte .front 0xFFFFFFFF) := by decide

theorem witness_IllegalOpcodeRecorded :
    opField 0x0500000000000000#64 ∉ [0x01#8, 0x02#8, 0x03#8, 0x04#8, 0x10#8, 0x20#8, 0x21#8, 0x22#8,
      0x30#8, 0x31#8, 0x32#8, 0x33#8, 0x34#8, 0x35#8, 0x36#8] := by decide

theorem witness_ReservedBitsRecorded : opField 0x0400000200000000#64 = Opcode.READBYTE.code ∧
    0x0400000200000000#64 &&& Opcode.READBYTE.format.resMask ≠ 0#64 := by decide

theorem witness_PseudoCommandsExpand : fitsS16 (-32768) = true ∧ fitsS16 32767 = true := by decide

theorem witness_AssembledLinesAreWellFormed :
    assembleLine "SETPIXEL -32768, 32767, 0, 0, 0xFF".toList = .command (.setpixel (-32768) 32767 0 0 255) := by decide

/-- Host agent 1 has the turn and the word `w` next. -/
def issuing (w : Word) : State :=
  { small with turns := [.host 1], hosts := [HostAgent.fresh, { HostAgent.fresh with cmds := [w] }] }

theorem witness_StepRunsDecodedCommand : ∀ w : Word, (issuing w).nextAgent = .host 1 ∧
    (issuing w).hosts[1]? = some { HostAgent.fresh with cmds := [w] } ∧
    { HostAgent.fresh with cmds := [w] }.hphase = .ready ∧ decode 0x2100000000000000#64 = .ok .stop ∧
    decode 0x0500000000000001#64 = .error .illegalOpcode ∧ decode 0x1000000000000001#64 = .error .reservedBits :=
  fun _ => ⟨rfl, rfl, rfl, by decide, by decide, by decide⟩

theorem witness_WithFetchWordRunsCommand : (Instr.setpixel 32767 (-32768) 1 2 3).wellFormed = true := by decide

/-- A swap is pending, teardown has begun and is over, a measurement is armed and a fault recorded, all at once. -/
def everything : State :=
  { gone with swapPending := true, parked := false, measureArmed := true, fault := 4#8 }.withCommand 0x3600000000000000#64

theorem witness_WriterTable_host : (∃ t, hostStep 0 everything = .next t) ∧ everything.swapPending = true ∧
    everything.parked = false ∧ everything.measureArmed = true ∧ everything.disposing = true ∧
    everything.disposed = true ∧ everything.fault ≠ 0#8 := ⟨⟨_, rfl⟩, by decide⟩

theorem witness_WriterTable_engine : (∃ t, engineStep { scanning .s5 0#14 0 0 0 with parked := true } = .next t) ∧
    { scanning .s5 0#14 0 0 0 with parked := true }.swapPending = false ∧
    { scanning .s5 0#14 0 0 0 with parked := true }.measureArmed = false := ⟨⟨_, rfl⟩, by decide⟩

theorem witness_OffsetMapIsBijective : (1 < 2 ∧ 1 < 2 ∧ 7 < 8) ∧ 31 < 8 * 2 * 2 ∧ offset 2 1 1 7 = 31 := by decide

theorem witness_SetpixelWritesItsLanes : small.tornDown = false ∧ (small.buf small.back).wf = true ∧
    small.inBounds 1 3 = true ∧ small.inBounds 0 0 = true := by decide

theorem witness_SetpixelClips : small.tornDown = false ∧ (-1 : Int) < 0 ∧ (small.width : Int) ≤ 2 ∧
    (small.rows : Int) ≤ 4 := by decide

theorem witness_SetpixelThenDecode : small.Inv ∧ small.tornDown = false ∧ small.inBounds 1 3 = true ∧
    small.inBounds 1 1 = true ∧ ((1 : Int), (1 : Int)) ≠ (1, 3) := ⟨inv_small, by decide⟩

theorem witness_SetpixelsCommute : small.Inv ∧ ((1 : Int), (1 : Int)) ≠ (1, 3) := ⟨inv_small, by decide⟩

theorem witness_FillWritesEveryLane : small.tornDown = false ∧ (small.buf small.back).wf = true ∧ 31 < small.size ∧
    small.size ≤ 32 := by decide

/-- The eight coordinates of the small panel. -/
def smallCoords : List (Int × Int) := [(0, 0), (1, 0), (0, 1), (1, 1), (0, 2), (1, 2), (0, 3), (1, 3)]

theorem witness_FillIsSetpixelEverywhere : small.Inv ∧ small.tornDown = false ∧
    ∀ col row, small.inBounds col row = true → (col, row) ∈ smallCoords := by
  refine ⟨inv_small, by decide, fun col row h => ?_⟩
  have hw : small.width = 2 := rfl
  have hr : small.rows = 4 := rfl
  simp only [State.inBounds, hw, hr, Bool.and_eq_true, decide_eq_true_eq] at h
  have hc : col = 0 ∨ col = 1 := by omega
  have hr : row = 0 ∨ row = 1 ∨ row = 2 ∨ row = 3 := by omega
  rcases hc with rfl | rfl <;> rcases hr with rfl | rfl | rfl | rfl <;> decide

theorem witness_FillIsUniform : small.Inv ∧ small.tornDown = false ∧ small.inBounds 1 3 = true :=
  ⟨inv_small, by decide⟩

theorem witness_DecodeAnswersPixel : small.tornDown = false ∧ small.inBounds 1 3 = true := by decide

theorem witness_BadOperandsRecorded : small.tornDown = false ∧ (small.width : Int) ≤ 2 ∧ (-1 : Int) < 0 ∧
    (small.rows : Int) ≤ 4 ∧ small.size ≤ (32#32).toNat := by decide

theorem witness_ReadbyteAnswersByte : small.Inv ∧ small.tornDown = false ∧ (31#32).toNat < small.size :=
  ⟨inv_small, by decide⟩

theorem witness_ReqswapSteps : small.tornDown = false ∧ (hosting .swapPost small).hosts[1]? = some (hostIn .swapPost) ∧
    (hosting .swapPost small).swapPending = false ∧
    (hosting .swapPost { small with swapPending := true }).hosts[1]? = some (hostIn .swapPost) ∧
    (hosting .swapPost { small with swapPending := true }).swapPending = true ∧
    (hosting .swapWait small).hosts[1]? = some (hostIn .swapWait) ∧
    (hosting .swapWait small).swapGen = (hostIn .swapWait).g0 ∧
    (hosting .swapWait { small with swapGen := 0xFFFFFFFF#32 }).hosts[1]? = some (hostIn .swapWait) ∧
    (hosting .swapWait { small with swapGen := 0xFFFFFFFF#32 }).swapGen ≠ (hostIn .swapWait).g0 := by decide

/-- W5: a pending swap at the frame boundary, with `SWAP_GEN` about to wrap. -/
def exchanging : State := { scanning .s13 0#14 0 7 0 with swapPending := true, swapGen := 0xFFFFFFFF#32, turns := [.engine] }

theorem witness_SwapCheckExchanges : exchanging.phase = .s13 ∧ exchanging.curH = 0#5 ∧ exchanging.swapPending = true ∧
    (scanning .s13 0#14 1 7 0).phase = .s13 ∧
    ¬ ((scanning .s13 0#14 1 7 0).curH = 0#5 ∧ (scanning .s13 0#14 1 7 0).swapPending = true) := by decide

theorem witness_FrontChangesOnlyAtFrameBoundary : ∃ t, step exchanging = .next t ∧ t.front ≠ exchanging.front ∧
    t.swapGen ≠ exchanging.swapGen := ⟨_, rfl, by decide⟩

theorem witness_ExchangeShowsBackBuffer : exchanging.tornDown = false ∧ exchanging.phase = .s13 ∧
    exchanging.curH = 0#5 ∧ exchanging.swapPending = true ∧ exchanging.inBounds 1 3 = true := by decide

theorem witness_ColorMaskIsLowBits : small.TablesOk := small_tables

theorem witness_BlankStep : (scanning .s1 0#14 0 0 0).phase = .s1 ∧ (scanning .s1 0#14 0 0 0).measureArmed = false ∧
    { scanning .s1 0#14 0 0 0 with measureArmed := true }.phase = .s1 ∧
    { scanning .s1 0#14 0 0 0 with measureArmed := true }.measureArmed = true := by decide

theorem witness_AddressSteps : (scanning .s2 0x2040#14 0 7 0).Inv ∧ (scanning .s2 0x2040#14 0 7 0).phase = .s2 :=
  ⟨inv_s2, rfl⟩

theorem witness_ColorStep : (scanning .s4 0x2040#14 1 0 1).Inv ∧ (scanning .s4 0x2040#14 1 0 1).phase = .s4 :=
  ⟨inv_s4, rfl⟩

/-- One column before the last, and the last. -/
theorem witness_ShiftClockSteps : (scanning .s5 0x2000#14 0 0 0).Inv ∧ (scanning .s5 0x2000#14 0 0 0).phase = .s5 ∧
    (scanning .s5 0x2000#14 0 0 1).Inv ∧ (scanning .s5 0x2000#14 0 0 1).phase = .s5 :=
  ⟨inv_s5_first, rfl, inv_s5_last, rfl⟩

theorem witness_LatchSteps : (scanning .s7 1#14 0 0 0).phase = .s7 ∧ (scanning .s8 0x3001#14 0 0 0).phase = .s8 ∧
    (scanning .s9 0x2001#14 0 0 0).phase = .s9 ∧ ∃ t, engineStep (scanning .s9 0x2001#14 0 0 0) = .next t :=
  ⟨rfl, rfl, rfl, _, rfl⟩

/-- A hold of plane `i` with a base of 100 ns from 5000 ns on, whose next poll reads `t` (S-16 to S-18). -/
def polling (i : BitVec 3) (t : Word) : State :=
  { scanning .s11 0#14 0 i 0 with latB := 100#32, t0 := 5000#64, clockDraws := [t] }

/-- The last poll inside a hold, the first one that ends it before plane 7, and the one that ends plane 7's. -/
theorem witness_HoldSteps : (scanning .s10 0#14 0 0 0).phase = .s10 ∧
    ((polling 3 5799#64).phase = .s11 ∧ (polling 3 5799#64).clockValue.toNat <
      (polling 3 5799#64).t0.toNat + (polling 3 5799#64).latB.toNat * 2 ^ (polling 3 5799#64).curI.toNat) ∧
    ((polling 6 11400#64).t0.toNat + (polling 6 11400#64).latB.toNat * 2 ^ (polling 6 11400#64).curI.toNat ≤
      (polling 6 11400#64).clockValue.toNat ∧ (polling 6 11400#64).curI.toNat < 7) ∧
    ((polling 7 17800#64).t0.toNat + (polling 7 17800#64).latB.toNat * 2 ^ (polling 7 17800#64).curI.toNat ≤
      (polling 7 17800#64).clockValue.toNat ∧ (polling 7 17800#64).curI.toNat = 7) := by decide

theorem witness_HoldSteps_column : (polling 6 11400#64).CursorsOk :=
  ⟨by decide, by decide, fun _ => rfl, fun h => absurd h (by decide)⟩

theorem witness_AdvanceStep : (scanning .s12 0#14 1 7 0).GeometryOk ∧ (scanning .s12 0#14 1 7 0).phase = .s12 :=
  ⟨by show _ = _; decide, rfl⟩

theorem witness_EndOfCycleSteps : (scanning .s14 0#14 0 7 0).phase = .s14 ∧ (scanning .s14 0#14 0 7 0).measActive = false ∧
    measuring.phase = .s14 ∧ measuring.measActive = true ∧ measuring.ClockOk ∧
    (scanning .s15 0#14 0 7 0).phase = .s15 ∧ (scanning .s15 0#14 0 7 0).running = true ∧
    stoppingLate.phase = .s15 ∧ stoppingLate.running = false :=
  ⟨rfl, rfl, rfl, rfl, inv_measuring.clock, rfl, rfl, rfl, rfl⟩

theorem witness_NoMidCycleAbort : (scanning .s9 0x2000#14 0 0 0).FlagsOk ∧ (scanning .s9 0x2000#14 0 0 0).phase ≠ .idle ∧
    (∃ t, hostStep 1 (scanning .s9 0x2000#14 0 0 0) = .next t) ∧
    ∃ t, engineStep (scanning .s9 0x2000#14 0 0 0) = .next t :=
  ⟨inv_s9.flags, by decide, ⟨_, rfl⟩, _, rfl⟩

theorem witness_CycleTransactionCount : (scanning .s9 0x2000#14 0 0 0).Inv ∧
    (∃ t, engineStep (scanning .s9 0x2000#14 0 0 0) = .next t) ∧ (scanning .s9 0x2000#14 0 0 0).phase ≠ .s15 ∧
    (scanning .s1 0#14 0 0 0).phase = .s1 ∧ (scanning .s15 0#14 0 0 0).phase = .s15 :=
  ⟨inv_s9, ⟨_, rfl⟩, by decide, rfl, rfl⟩

theorem witness_BlankBeforeReaddress : { scanning .s2 0x2000#14 1 7 0 with turns := [.engine] }.Inv ∧
    (∃ t, step { scanning .s2 0x2000#14 1 7 0 with turns := [.engine] } = .next t ∧
      t.addrLinesOut ≠ { scanning .s2 0x2000#14 1 7 0 with turns := [.engine] }.addrLinesOut) ∧
    (scanning .s9 0x2000#14 0 0 0).Inv ∧ (scanning .s9 0x2000#14 0 0 0).curI = 0#3 :=
  ⟨inv_s2_change, ⟨_, rfl, by decide⟩, inv_s9, rfl⟩

/-- Host agent 1 is about to release the lines, and has the turn. -/
def releasing : State := { hosting .dispRelease { small with disposing := true } with turns := [.host 1] }

theorem inv_releasing : releasing.Inv :=
  inv_of_check small_tables (by decide) (trivial) (fun h => ⟨h, trivial⟩)

/-- A transaction; the lines about the two unused ranges (P2x4 uses one address line, line 6); disposal; release. -/
theorem witness_NoTransactionAfterRelease : { scanning .s9 0x2000#14 0 0 0 with turns := [.engine] }.Inv ∧
    (∃ t, step { scanning .s9 0x2000#14 0 0 0 with turns := [.engine] } = .next t ∧ t.trace ≠ [] ∧ t.disposed = false) ∧
    (6 + addrLines small.hr = 7 ∧ small.pinmap[6]? = some ⟨6, false⟩ ∧ small.pinmap[11]? = some ⟨11, false⟩ ∧
      small.pinmap[13]? = some ⟨13, false⟩) ∧
    { gone with turns := [.engine] }.Inv ∧ (∃ t, step { gone with turns := [.engine] } = .next t) ∧
    { gone with turns := [.engine] }.disposed = true ∧
    releasing.Inv ∧ ∃ t, step releasing = .next t ∧ t.disposed = true :=
  ⟨inv_s9_turn, ⟨_, rfl, by decide, rfl⟩, by decide, inv_gone_turn, ⟨_, rfl⟩, rfl, inv_releasing, _, rfl, rfl⟩

theorem holding_display : { holding with turns := [.engine] }.DisplayOk :=
  ⟨by decide, by decide, by decide, trivial, by show _ = _; decide⟩

theorem witness_ObserverKeepsUp : { holding with turns := [.engine] }.Inv ∧ { holding with turns := [.engine] }.DisplayOk ∧
    ∃ t, step { holding with turns := [.engine] } = .next t :=
  ⟨inv_holding_turn, holding_display, _, rfl⟩

/-- The end of the same hold, and the first column of the plane after plane 0. -/
def held : State := { scanning .s12 0#14 0 7 0 with trace := darkTrace }
def shiftingNext : State := { scanning .s4 0#14 0 1 0 with trace := darkTrace }

theorem inv_held : held.Inv :=
  inv_of_check small_tables (by decide) (by show _ = _; decide) (fun h => ⟨h, by show _ = _; decide⟩)

theorem inv_shiftingNext : shiftingNext.Inv :=
  inv_of_check small_tables (by decide) (by show _ = _; decide) (fun h => ⟨h, by show _ = _; decide⟩)

theorem held_display : held.DisplayOk := ⟨by decide, by decide, by decide, trivial, by show _ = _; decide⟩

theorem shiftingNext_display : shiftingNext.DisplayOk :=
  ⟨by decide, by decide, by decide, by show _ <:+ _; decide, fun _ => by decide⟩

theorem blanked_display : (scanning .s2 0x2040#14 0 7 0).DisplayOk :=
  ⟨by decide, by decide, by decide, trivial, trivial⟩

theorem witness_HeldPlaneIsShown :
    ({ holding with turns := [.engine] }.Inv ∧ { holding with turns := [.engine] }.DisplayOk ∧
      { holding with turns := [.engine] }.phase = .s10) ∧
    (held.Inv ∧ held.DisplayOk ∧ held.phase = .s12) ∧
    (shiftingNext.Inv ∧ shiftingNext.DisplayOk ∧ shiftingNext.phase = .s4 ∧ shiftingNext.curI ≠ 0#3) ∧
    ((scanning .s2 0x2040#14 0 7 0).Inv ∧ (scanning .s2 0x2040#14 0 7 0).DisplayOk ∧
      (scanning .s2 0x2040#14 0 7 0).phase = .s2) ∧
    (∃ t, step { holding with turns := [.engine] } = .next t ∧ t.linesHeld = holding.linesHeld) :=
  ⟨⟨inv_holding_turn, holding_display, rfl⟩, ⟨inv_held, held_display, rfl⟩,
    ⟨inv_shiftingNext, shiftingNext_display, rfl, by decide⟩, ⟨inv_s2, blanked_display, rfl⟩, _, rfl, rfl⟩

/-- The bound is met with equality. -/
theorem measuring_ok : { measuring with turns := [.engine] }.MeasureOk := fun _ => by show _ ≤ _; decide

theorem witness_MeasuredCycleBound : { measuring with turns := [.engine] }.Inv ∧
    { measuring with turns := [.engine] }.MeasureOk ∧ ∃ t, step { measuring with turns := [.engine] } = .next t :=
  ⟨inv_measuring_turn, measuring_ok, _, rfl⟩

theorem witness_FrameTimeLowerBound : { measuring with turns := [.engine] }.Inv ∧
    { measuring with turns := [.engine] }.MeasureOk ∧ { measuring with turns := [.engine] }.phase = .s14 ∧
    { measuring with turns := [.engine] }.measActive = true ∧
    ∃ t, engineStep { measuring with turns := [.engine] } = .next t :=
  ⟨inv_measuring_turn, measuring_ok, rfl, rfl, _, rfl⟩

/-- The last deadline that the count can reach. -/
theorem witness_ClockNeverDecreases : (∃ t, step { holding with turns := [.engine] } = .next t) ∧
    { polling 7 0#64 with t0 := 0xFFFFFFFFFFFFCDFF#64 }.phase = .s11 ∧
    { polling 7 0#64 with t0 := 0xFFFFFFFFFFFFCDFF#64 }.t0.toNat +
      { polling 7 0#64 with t0 := 0xFFFFFFFFFFFFCDFF#64 }.latB.toNat *
        2 ^ { polling 7 0#64 with t0 := 0xFFFFFFFFFFFFCDFF#64 }.curI.toNat = 2 ^ 64 - 1 :=
  ⟨⟨_, rfl⟩, rfl, by decide⟩

/-- Stopped just before S1: a further whole cycle is to come. -/
def stoppingAtS1 : State := { scanning .s1 0#14 0 0 0 with running := false }

theorem inv_stoppingAtS1 : stoppingAtS1.Inv :=
  inv_of_check small_tables (by decide) (trivial) (fun h => ⟨h, trivial⟩)

theorem witness_StoppingEngineParks : stopping.Inv ∧ stopping.running = false ∧ stopping.phase ≠ .idle ∧
    stopping.phase ≠ .s1 ∧ stopping.latB = 0#32 ∧ (∃ t, engineRun 1 stopping = .next t) ∧
    stoppingLate.Inv ∧ stoppingLate.cyclePos = 24 * stoppingLate.width + 46 ∧
    (∃ t, engineRun 1 stoppingLate = .next t ∧ t.phase = .idle) ∧
    stoppingAtS1.Inv ∧ stoppingAtS1.running = false ∧ stoppingAtS1.phase = .s1 ∧ stoppingAtS1.cyclePos = 0 :=
  ⟨inv_stopping, rfl, by decide, by decide, rfl, ⟨_, rfl⟩, inv_stoppingLate, rfl, ⟨_, rfl, rfl⟩, inv_stoppingAtS1, rfl, rfl, rfl⟩

theorem witness_StartSteps : small.tornDown = false ∧ small.running = false ∧ small.parked = true ∧
    stopping.tornDown = false ∧ stopping.running = false ∧ stopping.parked = false ∧
    (hosting .startWait { small with disposing := true }).hosts[1]? = some (hostIn .startWait) ∧
    (hosting .startWait { small with disposing := true }).disposing = true ∧
    (hosting .startWait stopping).hosts[1]? = some (hostIn .startWait) ∧
    (hosting .startWait stopping).disposing = false ∧ (hosting .startWait stopping).isStopping = true ∧
    (hosting .startWait (scanning .s5 0#14 0 0 0)).hosts[1]? = some (hostIn .startWait) ∧
    (hosting .startWait (scanning .s5 0#14 0 0 0)).disposing = false ∧
    (hosting .startWait (scanning .s5 0#14 0 0 0)).running = true ∧
    (hosting .startWait small).hosts[1]? = some (hostIn .startWait) ∧ (hosting .startWait small).disposing = false ∧
    (hosting .startWait small).running = false ∧ (hosting .startWait small).parked = true := by decide

theorem witness_StartIsIdempotent : small.tornDown = false ∧ small.parked = true ∧
    (scanning .s5 0#14 0 0 0).tornDown = false ∧ (scanning .s5 0#14 0 0 0).running = true := by decide

theorem witness_StopClearsRunning : small.tornDown = false ∧ small.running = false ∧
    (scanning .s5 0#14 0 0 0).tornDown = false := by decide

theorem witness_DisposeSteps : gone.disposed = true ∧ { small with disposing := true }.disposed = false ∧
    { small with disposing := true }.disposing = true ∧ small.disposed = false ∧ small.disposing = false ∧
    (hosting .dispWaitPark stopping).hosts[1]? = some (hostIn .dispWaitPark) ∧
    (hosting .dispWaitPark stopping).parked = false ∧
    (hosting .dispWaitPark small).hosts[1]? = some (hostIn .dispWaitPark) ∧ (hosting .dispWaitPark small).parked = true ∧
    (hosting .dispRelease small).hosts[1]? = some (hostIn .dispRelease) ∧
    (hosting .dispWaitOther small).hosts[1]? = some (hostIn .dispWaitOther) ∧
    (hosting .dispWaitOther small).disposed = false ∧
    (hosting .dispWaitOther gone).hosts[1]? = some (hostIn .dispWaitOther) ∧
    (hosting .dispWaitOther gone).disposed = true := by decide

theorem witness_TornDownRaisesUseAfterDispose : gone.tornDown = true ∧ Instr.decode .back 99 99 ≠ .dispose ∧
    Instr.decode .back 99 99 ≠ .getstatus := by decide

theorem witness_FaultKeepsFirstCode : small.hosts[0]? = some HostAgent.fresh ∧ 1 ≠ 0 ∧
    (∃ t, step ({ small with fault := 4#8 }.withCommand 0x0500000000000000#64) = .next t) ∧
    ({ small with fault := 4#8 }.withCommand 0x0500000000000000#64).fault ≠ 0#8 := ⟨by decide, by decide, ⟨_, rfl⟩, by decide⟩

theorem witness_ParkedDisposeCompletes : (hosting .dispWaitPark small).hosts[1]? = some (hostIn .dispWaitPark) ∧
    (hostIn .dispWaitPark).hphase = .dispWaitPark ∧ (hosting .dispWaitPark small).parked = true := by decide

theorem witness_ConfigurationCommands : small.tornDown = false := by decide

theorem witness_QueryCommands : (scanning .s5 0#14 0 0 0).tornDown = false := by decide

theorem witness_ReadsHaveNoSideEffect : readsOnly .getbase = true ∧ readsOnly (.readbyte .front 31) = true ∧
    gone.tornDown = true ∧ small.tornDown = false ∧ small.operandBad (.readbyte .front 31) = false ∧
    small.operandBad (.readbyte .front 32) = true ∧ small.operandBad (.decode .back 1 3) = false ∧
    small.operandBad (.decode .back 1 4) = true ∧ small.hosts[1]? = some HostAgent.fresh ∧ 0 ≠ 1 := by decide

/-- The largest geometry is accepted; one row or one column more is not. -/
theorem witness_ConstructionOutcomes : geometryOk 32767 64 = true ∧ geometryOk 32767 66 = false ∧
    geometryOk 32768 64 = false ∧ paramsLegal p2x4 = true := ⟨by decide, by decide, by decide, test_p2x4_legal⟩

theorem witness_StepKeepsInvariant : { scanning .s2 0x2000#14 1 7 0 with turns := [.engine] }.Inv ∧
    ∃ t, step { scanning .s2 0x2000#14 1 7 0 with turns := [.engine] } = .next t := ⟨inv_s2_change, _, rfl⟩

theorem witness_NoRunStops : small.Inv := inv_small

end Sys2Proof.Tests
end

section
/-! SUPPORT. The encoding of 30_encoding.md, proved: which `OP` bytes the opcode map assigns, the two ways decoding fails
and what the host agent's step records then, and what the assembler makes of operands that lie in their ranges. -/

namespace Sys2Proof.Encoding

open Sys2Proof.Machine

/-! ### The opcode map -/

/-- The map assigns an `OP` byte exactly when it is the code of one of its rows (R76, R78). -/
theorem ofCode_eq_none_iff (b : Byte) : Opcode.ofCode b = none ↔ b ∉ Opcode.all.map Opcode.code := by
  simp [Opcode.ofCode]

/-- No two rows of the map share a code (R76). -/
@[simp] theorem ofCode_code (op : Opcode) : Opcode.ofCode op.code = some op := by
  cases op <;> rfl

/-! ### The two decode faults -/

theorem decode_of_unassigned {w : Word} (h : Opcode.ofCode (opField w) = none) :
    decode w = .error .illegalOpcode := by
  simp only [decode, h]

/-- Only the reserved bits of the format that the opcode selects are tested (R79, R81). -/
theorem decode_of_opField {w : Word} {op : Opcode} (h : opField w = op.code) :
    decode w = if w &&& op.format.resMask = 0#64 then .ok (assemble op w) else .error .reservedBits := by
  simp only [decode, h, ofCode_code]

/-- A word that does not decode is issued as the record of its decode fault and nothing more (R77). -/
theorem issueWord_of_decode_error {w : Word} {e : DecodeError} (h : decode w = .error e) (k : Nat) (s : State) :
    issueWord k w s = .next ((s.issue k).raiseFault k (faultOfDecode e)) := by
  simp only [issueWord, h]

/-- Settles O3: the fifteen bytes of the statement are the codes of the map's rows. -/
theorem illegalOpcodeRecorded : Obligations.IllegalOpcodeRecorded := by
  refine ⟨rfl, fun w hop => ?_⟩
  have herr : decode w = .error .illegalOpcode := decode_of_unassigned ((ofCode_eq_none_iff _).mpr hop)
  exact ⟨herr, issueWord_of_decode_error herr⟩

/-- Settles O4: the opcode fixes the mask, and a bit under it leaves decoding no other answer. -/
theorem reservedBitsRecorded : Obligations.ReservedBitsRecorded := by
  refine ⟨rfl, fun w op hop hres => ?_⟩
  have herr : decode w = .error .reservedBits := (decode_of_opField hop).trans (if_neg hres)
  exact ⟨herr, issueWord_of_decode_error herr⟩

/-! ### Operands in range -/

/-- The value of a word of `n` bits lies in the range of an unsigned field of `n` bits (R83). -/
@[simp] theorem fitsUnsigned_toNat {n : Nat} (x : BitVec n) : fitsUnsigned n x.toNat = true := by
  have hlt : (x.toNat : Int) < 2 ^ n := by exact_mod_cast x.isLt
  simp [fitsUnsigned, hlt]

/-- A byte's value is assembled as that byte. -/
@[simp] theorem u8Operand_toNat (b : Byte) : u8Operand b.toNat = some b := by
  simp [u8Operand]

theorem s16Operand_of_fits {z : Int} (h : fitsS16 z = true) : s16Operand z = some z := if_pos h

theorem asmSetpixel_of_fits {col row : Int} (hcol : fitsS16 col = true) (hrow : fitsS16 row = true) (r g b : Byte) :
    asmSetpixel col row r.toNat g.toNat b.toNat = some (.setpixel col row r g b) := by
  simp [asmSetpixel, s16Operand_of_fits hcol, s16Operand_of_fits hrow]

theorem asmFill_toNat (r g b : Byte) : asmFill r.toNat g.toNat b.toNat = some (.fill r g b) := by
  simp [asmFill]

/-- `SETPIXEL24` is `SETPIXEL` with the three bytes of `rgb`, highest first (R85). -/
theorem asmSetpixel24_of_fits {col row : Int} (hcol : fitsS16 col = true) (hrow : fitsS16 row = true)
    (rgb : BitVec 24) :
    asmSetpixel24 col row rgb.toNat =
      some (.setpixel col row (rgb.extractLsb' 16 8) (rgb.extractLsb' 8 8) (rgb.extractLsb' 0 8)) := by
  have hsame : BitVec.ofInt 24 (rgb.toNat : Int) = rgb := by simp
  simp only [asmSetpixel24, fitsUnsigned_toNat, if_true, hsame]
  exact asmSetpixel_of_fits hcol hrow _ _ _

/-- Settles O6: the rows of R85, of which only `CLEAR` and `SETPIXEL24` have operands to assemble. -/
theorem pseudoCommandsExpand : Obligations.PseudoCommandsExpand :=
  ⟨asmFill_toNat 0 0 0, rfl, rfl, fun _ _ rgb hcol hrow => asmSetpixel24_of_fits hcol hrow rgb⟩

end Sys2Proof.Encoding
end

section
/-! SUPPORT. The drawing commands of 40_pixel_encoder.md, proved: SETPIXEL and FILL as functions on the back buffer's
contents, the bits each of them writes, and why a FILL is a SETPIXEL of every pixel in whatever order. -/

namespace Sys2Proof.PixelEncoder

open Sys2Proof.Machine

/-! ### A drawing command's effect on the state -/

/-- The state after a drawing command that leaves `m` in the back buffer: the issuer has its response, 0, and nothing
else has changed (R92, R95). -/
def drawn (s : State) (m : Memory) : State := (s.setBuf s.back m).complete s.issuer 0#64

/-- What one `SETPIXEL` makes of the back buffer's contents: the pixel's eight bytes rewritten (R92), or nothing when it
is clipped (R91). -/
def paint (s : State) (r g b : Byte) (m : Memory) (p : Int × Int) : Memory :=
  if s.inBounds p.1 p.2 then
    writePixel m (s.pixelBase p.1 p.2) (s.isUpper p.2) (s.gammaOf r) (s.gammaOf g) (s.gammaOf b)
  else m

theorem setBuf_buf_self (s : State) (p : Bool) : s.setBuf p (s.buf p) = s := by
  cases p <;> rfl

@[simp] theorem drawn_tornDown (s : State) (m : Memory) : (drawn s m).tornDown = s.tornDown := rfl

@[simp] theorem drawn_buf_back (s : State) (m : Memory) : (drawn s m).buf (drawn s m).back = m :=
  s.buf_setBuf_self s.back m

/-- The coordinates and the gamma table are the geometry's and the tables', which no drawing changes. -/
@[simp] theorem paint_drawn (s : State) (m : Memory) : paint (drawn s m) = paint s := rfl

/-- Of two drawings only the second one's contents remain: they share the buffer and the issuer, and the response is 0
both times. -/
@[simp] theorem drawn_drawn (s : State) (m n : Memory) : drawn (drawn s m) n = drawn s n := by
  have hbuf : ∀ p, ((s.setBuf p m).complete s.issuer 0#64).setBuf p n = (s.setBuf p n).complete s.issuer 0#64 := by
    intro p
    cases p <;> rfl
  have htwice : ∀ t : State, (t.complete s.issuer 0#64).complete s.issuer 0#64 = t.complete s.issuer 0#64 := by
    intro t
    simp only [State.complete, State.modifyHost, List.modify_modify_eq]
    rfl
  calc drawn (drawn s m) n
      = (((s.setBuf s.back m).complete s.issuer 0#64).setBuf s.back n).complete s.issuer 0#64 := rfl
    _ = ((s.setBuf s.back n).complete s.issuer 0#64).complete s.issuer 0#64 := by rw [hbuf]
    _ = drawn s n := htwice _

/-- `SETPIXEL`, in bounds or clipped, is the painting of one pixel. -/
theorem exec_setpixel {s : State} (ht : s.tornDown = false) (col row : Int) (r g b : Byte) :
    exec (.setpixel col row r g b) s = .next (drawn s (paint s r g b (s.buf s.back) (col, row))) := by
  have hcheck : exec (.setpixel col row r g b) s = .next _ := State.unlessTornDown_pass ht
  rw [hcheck]
  unfold paint
  split
  · rfl
  · rw [drawn, setBuf_buf_self]

theorem exec_fill {s : State} (ht : s.tornDown = false) (r g b : Byte) :
    exec (.fill r g b) s =
      .next (drawn s (fillMemory (s.buf s.back) s.size (s.gammaOf r) (s.gammaOf g) (s.gammaOf b))) :=
  State.unlessTornDown_pass ht

/-- Several `SETPIXEL`s, at least one, paint their pixels one after the other. -/
theorem execAll_setpixels {s : State} (ht : s.tornDown = false) (r g b : Byte) {cs : List (Int × Int)} (hcs : cs ≠ []) :
    execAll (cs.map fun p => .setpixel p.1 p.2 r g b) s = .next (drawn s (cs.foldl (paint s r g b) (s.buf s.back))) := by
  induction cs generalizing s with
  | nil => exact absurd rfl hcs
  | cons p rest ih =>
    simp only [List.map_cons, execAll, exec_setpixel ht, List.foldl_cons]
    cases rest with
    | nil => rfl
    | cons q rest =>
      rw [ih (by simpa using ht) (by simp)]
      simp

/-! ### The bits of a byte that a drawing writes -/

/-- `put` rewrites the lanes of one row group, the lane number modulo 3 being the channel (R90). -/
theorem put_getLsbD (v : Byte) (upper : Bool) (q : BitVec 3) (k : Nat) :
    (put v upper q).getLsbD k = if k / 3 = (if upper then 0 else 1) then q.getLsbD (k % 3) else v.getLsbD k := by
  by_cases hk : k < 8
  · cases upper <;> interval_cases k <;> simp [put]
  · have hge : 8 ≤ k := by omega
    have hgroup : k / 3 ≠ (if upper then 0 else 1) := by split <;> omega
    simp only [if_neg hgroup, BitVec.getLsbD_of_ge _ _ hge]

/-- `fillByte` rewrites the lanes of both row groups (R95). -/
theorem fillByte_getLsbD (v : Byte) (q : BitVec 3) (k : Nat) :
    (fillByte v q).getLsbD k = if k < 6 then q.getLsbD (k % 3) else v.getLsbD k := by
  by_cases hk : k < 8
  · interval_cases k <;> simp [fillByte]
  · have hge : 8 ≤ k := by omega
    have hlane : ¬ k < 6 := by omega
    simp only [if_neg hlane, BitVec.getLsbD_of_ge _ _ hge]

/-! ### The bytes of a pixel -/

/-- Whether a `SETPIXEL` of the pixel `p` writes bit `k` of the byte at `off`: the pixel is in bounds, the byte is one of
its eight, and the bit is a lane of its row group. -/
def writesBit (s : State) (off k : Nat) (p : Int × Int) : Bool :=
  s.inBounds p.1 p.2 && s.inPixel p.1 p.2 off && decide (k / 3 = if s.isUpper p.2 then 0 else 1)

/-- The bit that a drawing with the channels `r g b` leaves in lane `k` of the byte at `off`, whichever pixel's it is: bit
`off mod 8` of the lane's channel (R89, R90). -/
def drawnBit (s : State) (r g b : Byte) (off k : Nat) : Bool :=
  (pat (off % 8) (s.gammaOf r) (s.gammaOf g) (s.gammaOf b)).getLsbD (k % 3)

theorem inBounds_iff (s : State) (col row : Int) :
    s.inBounds col row = true ↔ (0 ≤ col ∧ col < s.width) ∧ 0 ≤ row ∧ row < s.rows := by
  simp [State.inBounds, and_assoc]

theorem inPixel_iff (s : State) (col row : Int) (off : Nat) :
    s.inPixel col row off = true ↔ s.pixelBase col row ≤ off ∧ off < s.pixelBase col row + 8 := by
  simp [State.inPixel]

theorem writesBit_iff (s : State) (off k : Nat) (p : Int × Int) :
    writesBit s off k p = true ↔
      s.inBounds p.1 p.2 = true ∧ s.inPixel p.1 p.2 off = true ∧ k / 3 = if s.isUpper p.2 then 0 else 1 := by
  simp [writesBit, and_assoc]

theorem pixelBase_eq (s : State) (col row : Int) :
    s.pixelBase col row = 8 * (col.toNat + s.halfOf row * s.width) := by
  simp only [State.pixelBase, offset]
  ring

theorem size_eq (s : State) : s.size = 8 * s.width * s.hr := rfl

theorem isUpper_iff (s : State) (row : Int) : s.isUpper row = true ↔ row < s.hr := by
  simp [State.isUpper]

/-- A pixel starts at a multiple of 8, so the plane of each of its bytes is the offset modulo 8 (R51). -/
theorem plane_of_inPixel {s : State} {col row : Int} {off : Nat} (h : s.inPixel col row off = true) :
    off - s.pixelBase col row = off % 8 := by
  rw [inPixel_iff, pixelBase_eq] at h
  rw [pixelBase_eq]
  omega

/-- Every byte of an in-bounds pixel lies in `[0, S)` (R51, R53). -/
theorem lt_size_of_inPixel {s : State} {col row : Int} {off : Nat} (hH : 0 < s.hr) (hin : s.inBounds col row = true)
    (h : s.inPixel col row off = true) : off < s.size := by
  rw [inBounds_iff] at hin
  rw [inPixel_iff, pixelBase_eq] at h
  have hcol : col.toNat + 1 ≤ s.width := by omega
  have hhalf : s.halfOf row + 1 ≤ s.hr := Nat.mod_lt _ hH
  calc off < 8 * (s.halfOf row * s.width + (col.toNat + 1)) := by omega
    _ ≤ 8 * (s.halfOf row * s.width + s.width) := by omega
    _ = 8 * s.width * (s.halfOf row + 1) := by ring
    _ ≤ s.size := Nat.mul_le_mul_left _ hhalf

theorem paint_wf (s : State) (r g b : Byte) {m : Memory} (hm : m.wf = true) (p : Int × Int) :
    (paint s r g b m p).wf = true := by
  unfold paint
  split
  · exact (writePixel_spec m hm _ _ _ _ _).1
  · exact hm

/-- A `SETPIXEL` leaves in each bit it writes the value that the bit's place and the colour alone decide, and no other
bit changes. This is why neither order nor repetition shows (R94). -/
theorem paint_getLsbD (s : State) (r g b : Byte) {m : Memory} (hm : m.wf = true) (p : Int × Int) (off k : Nat) :
    ((paint s r g b m p).read off).getLsbD k =
      if writesBit s off k p then drawnBit s r g b off k else (m.read off).getLsbD k := by
  by_cases hin : s.inBounds p.1 p.2 = true
  · obtain ⟨-, hread⟩ :=
      writePixel_spec m hm (s.pixelBase p.1 p.2) (s.isUpper p.2) (s.gammaOf r) (s.gammaOf g) (s.gammaOf b)
    by_cases hpix : s.inPixel p.1 p.2 off = true
    · simp only [paint, if_pos hin, hread, if_pos ((inPixel_iff _ _ _ _).mp hpix), plane_of_inPixel hpix, put_getLsbD]
      simp [writesBit, drawnBit, hin, hpix]
    · simp only [paint, if_pos hin, hread, if_neg (mt (inPixel_iff _ _ _ _).mpr hpix)]
      simp [writesBit, hpix]
  · simp [paint, writesBit, hin]

/-! ### Painting a list of pixels, and filling -/

theorem foldl_paint_wf (s : State) (r g b : Byte) {m : Memory} (hm : m.wf = true) (cs : List (Int × Int)) :
    (cs.foldl (paint s r g b) m).wf = true := by
  induction cs generalizing m with
  | nil => exact hm
  | cons p rest ih => exact ih (paint_wf s r g b hm p)

/-- After any list of `SETPIXEL`s of one colour a bit is drawn when one of them writes it, wherever in the list. -/
theorem foldl_paint_getLsbD (s : State) (r g b : Byte) {m : Memory} (hm : m.wf = true) (cs : List (Int × Int))
    (off k : Nat) :
    ((cs.foldl (paint s r g b) m).read off).getLsbD k =
      if cs.any (writesBit s off k) then drawnBit s r g b off k else (m.read off).getLsbD k := by
  induction cs generalizing m with
  | nil => rfl
  | cons p rest ih =>
    rw [List.foldl_cons, ih (paint_wf s r g b hm p), paint_getLsbD s r g b hm]
    by_cases hp : writesBit s off k p = true
    · simp [hp]
    · have hany : (p :: rest).any (writesBit s off k) = rest.any (writesBit s off k) := by simp [hp]
      rw [if_neg hp, hany]

/-- `FILL` draws the six lanes of every byte of `[0, S)` (R95). -/
theorem fillMemory_getLsbD (s : State) (r g b : Byte) {m : Memory} (hm : m.wf = true) (off k : Nat) :
    ((fillMemory m s.size (s.gammaOf r) (s.gammaOf g) (s.gammaOf b)).read off).getLsbD k =
      if off < s.size ∧ k < 6 then drawnBit s r g b off k else (m.read off).getLsbD k := by
  obtain ⟨-, hread⟩ := fillMemory_spec m hm s.size (s.gammaOf r) (s.gammaOf g) (s.gammaOf b)
  rw [hread]
  by_cases hoff : off < s.size
  · simp [hoff, fillByte_getLsbD, drawnBit]
  · simp [hoff]

/-! ### Every lane has its pixel -/

/-- The pixel that has lane `k` of the byte at `off`: the column and the half-row of the offset (R51), in the row group of
the lane (R52). -/
def pixelOf (s : State) (off k : Nat) : Int × Int :=
  (offsetCol s.width off, (offsetRow s.width off + k / 3 * s.hr : Nat))

theorem offsetRow_lt {s : State} {off : Nat} (hoff : off < s.size) : offsetRow s.width off < s.hr :=
  Nat.div_lt_of_lt_mul (size_eq s ▸ hoff)

theorem offsetCol_lt {s : State} {off : Nat} (hoff : off < s.size) : offsetCol s.width off < s.width := by
  refine Nat.mod_lt _ (Nat.pos_of_ne_zero fun h0 => ?_)
  simp [size_eq, h0] at hoff

/-- The inverse map of R51 leads back to plane 0 of the eight bytes that hold the offset. -/
theorem pixelBase_pixelOf {s : State} {off : Nat} (hoff : off < s.size) (k : Nat) :
    s.pixelBase (pixelOf s off k).1 (pixelOf s off k).2 = 8 * (off / 8) := by
  have hhalf : s.halfOf (pixelOf s off k).2 = off / 8 / s.width := by
    simp only [State.halfOf, pixelOf, Int.toNat_natCast, Nat.add_mul_mod_self_right, Nat.mod_eq_of_lt (offsetRow_lt hoff)]
    exact (Nat.div_div_eq_div_mul off 8 s.width).symm
  have hcol : (pixelOf s off k).1.toNat = off / 8 % s.width := rfl
  rw [pixelBase_eq, hhalf, hcol, Nat.mod_add_div']

theorem inBounds_pixelOf {s : State} {off k : Nat} (hoff : off < s.size) (hk : k < 6) :
    s.inBounds (pixelOf s off k).1 (pixelOf s off k).2 = true := by
  have hcol := offsetCol_lt hoff
  have hhalf := offsetRow_lt hoff
  have hrows : 2 * s.hr ≤ s.rows := Nat.mul_div_le s.rows 2
  have hgroup : k / 3 * s.hr ≤ 1 * s.hr := Nat.mul_le_mul_right _ (by omega)
  rw [inBounds_iff]
  simp only [pixelOf]
  omega

theorem isUpper_pixelOf {s : State} {off : Nat} (hoff : off < s.size) (k : Nat) :
    s.isUpper (pixelOf s off k).2 = true ↔ k / 3 = 0 := by
  have hhalf := offsetRow_lt hoff
  rw [isUpper_iff, pixelOf]
  rcases Nat.eq_zero_or_pos (k / 3) with h0 | hpos
  · simp [h0, hhalf]
  · have hgroup : 1 * s.hr ≤ k / 3 * s.hr := Nat.mul_le_mul_right _ hpos
    omega

/-- Every lane of every byte of `[0, S)` is a lane of an in-bounds pixel. -/
theorem writesBit_pixelOf {s : State} {off k : Nat} (hoff : off < s.size) (hk : k < 6) :
    writesBit s off k (pixelOf s off k) = true := by
  rw [writesBit_iff, inPixel_iff, pixelBase_pixelOf hoff]
  refine ⟨inBounds_pixelOf hoff hk, by omega, ?_⟩
  simp only [isUpper_pixelOf hoff]
  split <;> omega

/-- A bit that some `SETPIXEL` writes is one of the six lanes of a byte of `[0, S)`. -/
theorem lane_of_writesBit {s : State} (hH : 0 < s.hr) {off k : Nat} {p : Int × Int} (h : writesBit s off k p = true) :
    off < s.size ∧ k < 6 := by
  obtain ⟨hin, hpix, hlane⟩ := (writesBit_iff s off k p).mp h
  refine ⟨lt_size_of_inPixel hH hin hpix, ?_⟩
  split at hlane <;> omega

/-- When every in-bounds pixel is among the painted ones, the bits written are those that `FILL` writes. -/
theorem any_writesBit_iff {s : State} (hH : 0 < s.hr) {cs : List (Int × Int)}
    (hall : ∀ col row, s.inBounds col row = true → (col, row) ∈ cs) (off k : Nat) :
    cs.any (writesBit s off k) = true ↔ off < s.size ∧ k < 6 := by
  rw [List.any_eq_true]
  constructor
  · rintro ⟨p, -, hp⟩
    exact lane_of_writesBit hH hp
  · rintro ⟨hoff, hk⟩
    exact ⟨pixelOf s off k, hall _ _ (inBounds_pixelOf hoff hk), writesBit_pixelOf hoff hk⟩

/-! ### All pixels painted are the buffer filled -/

/-- Painting every in-bounds pixel, in any order, leaves the bytes that `FILL` leaves (R94). -/
theorem foldl_paint_eq_fillMemory {s : State} (hH : 0 < s.hr) (r g b : Byte) {m : Memory} (hm : m.wf = true)
    {cs : List (Int × Int)} (hall : ∀ col row, s.inBounds col row = true → (col, row) ∈ cs) :
    cs.foldl (paint s r g b) m = fillMemory m s.size (s.gammaOf r) (s.gammaOf g) (s.gammaOf b) := by
  refine Memory.ext_read (foldl_paint_wf s r g b hm cs) (fillMemory_spec m hm _ _ _ _).1 fun off => ?_
  refine BitVec.eq_of_getLsbD_eq fun k _ => ?_
  rw [foldl_paint_getLsbD s r g b hm, fillMemory_getLsbD s r g b hm]
  simp only [any_writesBit_iff hH hall]

/-! ### What the invariant gives a drawing -/

/-- The panel has a pixel, so a list of all pixels is not empty. -/
theorem inBounds_origin {s : State} (h : s.GeometryOk) : s.inBounds 0 0 = true := by
  simp only [State.GeometryOk, geometryOk, Bool.and_eq_true, decide_eq_true_eq] at h
  rw [inBounds_iff]
  omega

theorem hr_pos {s : State} (h : s.GeometryOk) : 0 < s.hr := by
  simp only [State.GeometryOk, geometryOk, Bool.and_eq_true, decide_eq_true_eq] at h
  simp only [State.hr, halfRows]
  omega

theorem wf_buf {s : State} (h : s.BuffersOk) (p : Bool) : (s.buf p).wf = true := by
  obtain ⟨⟨hwf0, -⟩, hwf1, -⟩ := h
  cases p
  · exact hwf0
  · exact hwf1

/-! ### The two statements -/

/-- Settles O14: a clipped `SETPIXEL` paints nothing, and the back buffer is written back as it was. -/
theorem setpixelClips : Obligations.SetpixelClips := by
  intro s col row r g b ht hclip
  have hout : ¬ s.inBounds col row = true := by
    rw [inBounds_iff]
    omega
  rw [exec_setpixel ht, paint, if_neg hout, drawn, setBuf_buf_self]

/-- Settles O18: both sides leave one drawing in the back buffer, and the two drawings agree in every bit. -/
theorem fillIsSetpixelEverywhere : Obligations.FillIsSetpixelEverywhere := by
  intro s r g b cs hinv ht hall
  have hcs : cs ≠ [] := List.ne_nil_of_mem (hall 0 0 (inBounds_origin hinv.geometry))
  rw [execAll_setpixels ht r g b hcs, exec_fill ht,
    foldl_paint_eq_fillMemory (hr_pos hinv.geometry) r g b (wf_buf hinv.buffers _) hall]

end Sys2Proof.PixelEncoder
end

section
/-! SUPPORT. The scan engine of 42_scan_engine.md, proved: one equation per micro-step that gives the engine's whole next
state, and what the cursors, the hold and the frame time are after it. -/

namespace Sys2Proof.ScanEngine

open Sys2Proof.Machine

/-! ### Transactions that only assert or only clear lines -/

theorem outWrite_assert (s : State) (x : Lines) :
    s.outWrite x 0#14 = { s with out := s.out ||| x, trace := ⟨x, 0#14, s.out⟩ :: s.trace } := by
  rw [State.outWrite, applyLines_assert]

/-- A line asserted by one transaction and cleared by another is clear, and every other line is as it was. -/
theorem applyLines_pulse (o x : Lines) : applyLines (applyLines o x 0#14) 0#14 x = o &&& ~~~ x := by
  rw [applyLines_assert, applyLines_clear]
  ext k hk
  cases hx : x[k] <;> simp [hx]

/-! ### What the geometry bounds -/

theorem width_le {s : State} (h : s.GeometryOk) : s.width ≤ 32767 := by
  simp only [State.GeometryOk, geometryOk, Bool.and_eq_true, decide_eq_true_eq] at h
  omega

theorem hr_le {s : State} (h : s.GeometryOk) : s.hr ≤ 32 := by
  simp only [State.GeometryOk, geometryOk, Bool.and_eq_true, decide_eq_true_eq] at h
  simp only [State.hr, halfRows]
  omega

/-! ### S1: the blank and the start of a measurement -/

section
variable {s : State}

theorem engineStep_s1 (h : s.phase = .s1) :
    engineStep s = .next ({ s.measureStart with latB := s.baseNs, phase := .s2 }.outWrite maskOe 0#14) := by
  simp only [engineStep, h, scanS1]

theorem measureStart_unarmed (h : s.measureArmed = false) : s.measureStart = s := by
  simp [State.measureStart, h]

theorem measureStart_armed (h : s.measureArmed = true) :
    s.measureStart = { s.clockTick with measActive := true, measureArmed := false, tm0 := s.clockValue } :=
  if_pos h

/-! ### S5 and S6: the shift clock and the column cursor -/

theorem engineStep_s5 (h : s.phase = .s5) :
    engineStep s = .next ({ s with phase := .s6 }.outWrite maskClk 0#14) := by
  simp only [engineStep, h, scanS5]

theorem engineStep_s6 (h : s.phase = .s6) :
    engineStep s = .next ({ s with
      curC := if s.moreColumns then s.curC + 1#15 else 0#15
      phase := if s.moreColumns then .s4 else .s7 }.outWrite 0#14 maskClk) := by
  simp only [engineStep, h, scanS6]

theorem engineRun_succ {t : State} (h : engineStep s = .next t) (n : Nat) : engineRun (n + 1) s = engineRun n t := by
  simp only [engineRun, h]

/-- The state after the two micro-steps of a `CLK` pulse (R121, R122). -/
def shifted (s : State) : State :=
  { { s with phase := .s6 }.outWrite maskClk 0#14 with
    curC := if s.moreColumns then s.curC + 1#15 else 0#15
    phase := if s.moreColumns then .s4 else .s7 }.outWrite 0#14 maskClk

theorem engineRun_shift (h : s.phase = .s5) : engineRun 2 s = .next (shifted s) := by
  rw [engineRun_succ (engineStep_s5 h), engineRun_succ (engineStep_s6 rfl)]
  rfl

theorem moreColumns_iff : s.moreColumns = true ↔ s.curC.toNat < s.width - 1 := by
  simp only [State.moreColumns, decide_eq_true_eq]
  omega

/-- The column cursor never wraps on its 15 bits, because no panel is wider than they count (R7). -/
theorem shifted_curC_toNat (h : s.GeometryOk) :
    (shifted s).curC.toNat = if s.curC.toNat < s.width - 1 then s.curC.toNat + 1 else 0 := by
  have hw := width_le h
  simp only [shifted, State.outWrite_curC, moreColumns_iff]
  split
  · bv_omega
  · rfl

/-! ### S10 and S11: the hold -/

theorem engineStep_s10 (h : s.phase = .s10) :
    engineStep s = .next { s.clockTick with t0 := s.clockValue, phase := .s11 } := by
  simp only [engineStep, h, scanS10]

theorem holdOver_iff (t : Word) :
    s.holdOver t = true ↔ s.t0.toNat + s.latB.toNat * 2 ^ s.curI.toNat ≤ t.toNat :=
  decide_eq_true_iff

theorem engineStep_s11_held (h : s.phase = .s11)
    (hlt : s.clockValue.toNat < s.t0.toNat + s.latB.toNat * 2 ^ s.curI.toNat) :
    engineStep s = .next s.clockTick := by
  simp only [engineStep, h, scanS11, holdOver_iff, if_neg (Nat.not_le.mpr hlt)]

theorem engineStep_s11_over (h : s.phase = .s11)
    (hle : s.t0.toNat + s.latB.toNat * 2 ^ s.curI.toNat ≤ s.clockValue.toNat) :
    engineStep s = .next s.clockTick.endHold := by
  simp only [engineStep, h, scanS11, holdOver_iff, if_pos hle]

theorem endHold_nextPlane (h : s.curI.toNat < 7) : s.endHold = { s with curI := s.curI + 1#3, phase := .s4 } :=
  if_neg (by bv_omega)

theorem endHold_lastPlane (h : s.curI.toNat = 7) : s.endHold = { s with phase := .s12 } :=
  if_pos (by bv_omega)

/-! ### S12 to S15: the end of a half-row cycle -/

theorem engineStep_s12 (h : s.phase = .s12) :
    engineStep s = .next { s with curH := BitVec.ofNat 5 ((s.curH.toNat + 1) % s.hr), phase := .s13 } := by
  simp only [engineStep, h, scanS12]

/-- Every half-row number fits the five bits of the cursor (R7, R38). -/
theorem ofNat_mod_hr_toNat (h : s.GeometryOk) (n : Nat) : (BitVec.ofNat 5 (n % s.hr)).toNat = n % s.hr := by
  have hlt : n % s.hr < s.hr := Nat.mod_lt _ (PixelEncoder.hr_pos h)
  rw [BitVec.toNat_ofNat]
  exact Nat.mod_eq_of_lt (hlt.trans_le (hr_le h))

theorem engineStep_s13_exchange (h : s.phase = .s13) (hc : s.curH = 0#5 ∧ s.swapPending = true) :
    engineStep s = .next { s.swapExchange with phase := .s14 } := by
  simp only [engineStep, h, scanS13, if_pos hc]

theorem engineStep_s13_noExchange (h : s.phase = .s13) (hc : ¬ (s.curH = 0#5 ∧ s.swapPending = true)) :
    engineStep s = .next { s with phase := .s14 } := by
  simp only [engineStep, h, scanS13, if_neg hc]

theorem engineStep_s14 (h : s.phase = .s14) : engineStep s = .next { s.measureEnd with phase := .s15 } := by
  simp only [engineStep, h, scanS14]

theorem measureEnd_inactive (h : s.measActive = false) : s.measureEnd = s := by
  simp [State.measureEnd, h]

theorem measureEnd_active (h : s.measActive = true) :
    s.measureEnd =
      { s.clockTick with frameTimeNs := s.clockValue - s.tm0, frameTimeValid := true, measActive := false } :=
  if_pos h

/-- The frame time does not wrap, because the clock never runs back behind the start of the measurement (R41). -/
theorem frameTime_toNat (h : s.ClockOk) : (s.clockValue - s.tm0).toNat = s.clockValue.toNat - s.tm0.toNat := by
  obtain ⟨-, htm0⟩ := h
  exact BitVec.toNat_sub_of_le (htm0.trans s.clockLast_le_value)

theorem engineStep_s15_running (h : s.phase = .s15) (hr : s.running = true) :
    engineStep s = .next { s with phase := .s1 } := by
  simp only [engineStep, h, scanS15, if_pos hr]

theorem engineStep_s15_parks (h : s.phase = .s15) (hr : s.running = false) :
    engineStep s = .next { s with parked := true, phase := .idle } := by
  simp [engineStep, h, scanS15, hr]

end

/-! ### The statements -/

/-- Settles O28: one transaction, after a measurement start that reads the clock only when armed. -/
theorem blankStep : Obligations.BlankStep := by
  intro s hp
  constructor
  · intro harmed
    rw [engineStep_s1 hp, measureStart_unarmed harmed, outWrite_assert]
    rfl
  · intro harmed
    rw [engineStep_s1 hp, measureStart_armed harmed, outWrite_assert]
    rfl

/-- Settles O24: the exchange is the whole effect, and `SWAP_GEN` wraps as its 32 bits do. -/
theorem swapCheckExchanges : Obligations.SwapCheckExchanges := by
  intro s hp
  constructor
  · intro hh hs
    exact ⟨_, engineStep_s13_exchange hp ⟨hh, hs⟩, rfl, rfl, BitVec.toNat_add _ _, rfl, rfl⟩
  · exact engineStep_s13_noExchange hp

/-- Settles O31: the pulse leaves `CLK` low, and the geometry keeps the column cursor from wrapping. -/
theorem shiftClockSteps : Obligations.ShiftClockSteps := by
  intro s hinv hp
  refine ⟨shifted s, engineRun_shift hp, shifted_curC_toNat hinv.geometry, ?_, applyLines_pulse _ _, ?_, rfl⟩
  · simp only [shifted, State.outWrite_phase, moreColumns_iff]
  · simp only [shifted, outWrite_assert]
    rfl

/-- Settles O33: a poll reads the clock, and the hold is over exactly from its deadline on. -/
theorem holdSteps : Obligations.HoldSteps := by
  intro s
  refine ⟨engineStep_s10, engineStep_s11_held, fun hp hover hi => ?_, fun hp hover hi => ?_⟩
  · refine ⟨_, (engineStep_s11_over hp hover).trans (congrArg _ (endHold_nextPlane hi)), ?_, rfl, ?_⟩
    · show (s.curI + 1#3).toNat = s.curI.toNat + 1
      bv_omega
    · rintro ⟨-, -, hcolumn, -⟩
      exact hcolumn (by rw [hp]; rfl)
  · exact (engineStep_s11_over hp hover).trans (congrArg _ (endHold_lastPlane hi))

/-- Settles O34: the five bits of `h` hold every half-row number, so the cursor is the remainder itself. -/
theorem advanceStep : Obligations.AdvanceStep := by
  intro s hgeo hp
  exact ⟨_, engineStep_s12 hp, ofNat_mod_hr_toNat hgeo _, rfl, rfl⟩

/-- Settles O35: one equation for each outcome of S14 and S15; the frame time is the one that needs an invariant. -/
theorem endOfCycleSteps : Obligations.EndOfCycleSteps := by
  intro s
  refine ⟨fun hp hactive => ?_, fun hp hactive hclock => ?_, engineStep_s15_running, engineStep_s15_parks⟩
  · rw [engineStep_s14 hp, measureEnd_inactive hactive]
  · refine ⟨{ s.measureEnd with phase := .s15 }, engineStep_s14 hp, ?_⟩
    rw [measureEnd_active hactive]
    exact ⟨frameTime_toNat hclock, rfl⟩

end Sys2Proof.ScanEngine
end

section
/-! SUPPORT. Lifecycle control of 43_lifecycle.md, proved: what `START` does to a block that is Running or Stopped, and
why a second `START` finds nothing left to do. -/

namespace Sys2Proof.Lifecycle

open Sys2Proof.Machine

/-! ### Completions -/

/-- Of two completions by one agent only the last response is left. -/
@[simp] theorem complete_complete (s : State) (k : Nat) (v w : Word) :
    (s.complete k v).complete k w = s.complete k w := by
  simp only [State.complete, State.modifyHost, List.modify_modify_eq]
  rfl

/-! ### Step 1 of `START` -/

theorem exec_start {s : State} (ht : s.tornDown = false) : exec .start s = .next (startStep s.issuer s) :=
  State.unlessTornDown_pass ht

theorem startStep_of_running {s : State} (k : Nat) (hr : s.running = true) : startStep k s = s.complete k 0#64 :=
  if_pos hr

@[simp] theorem startStep_issuer (k : Nat) (s : State) : (startStep k s).issuer = s.issuer := by
  rcases startStep_cases k s with ⟨-, heq⟩ | ⟨-, -, heq⟩ | ⟨-, -, heq⟩ <;> rw [heq] <;> rfl

@[simp] theorem startStep_tornDown (k : Nat) (s : State) : (startStep k s).tornDown = s.tornDown := by
  rcases startStep_cases k s with ⟨-, heq⟩ | ⟨-, -, heq⟩ | ⟨-, -, heq⟩ <;> rw [heq] <;> rfl

/-- A `START` that need not wait leaves the block Running (R141, R142), and its agent answered. -/
theorem startStep_running_and_answered {s : State} (k : Nat) (h : s.running = true ∨ s.parked = true) :
    (startStep k s).running = true ∧ (startStep k s).complete k 0#64 = startStep k s := by
  rcases startStep_cases k s with ⟨hrunning, heq⟩ | ⟨-, -, heq⟩ | ⟨hrunning, hparked, -⟩
  · rw [heq]
    exact ⟨hrunning, complete_complete ..⟩
  · rw [heq]
    exact ⟨rfl, complete_complete ..⟩
  · simp [hrunning, hparked] at h

/-- `START` while Running only answers 0 (R142). -/
theorem exec_start_of_running {s : State} (ht : s.tornDown = false) (hr : s.running = true) :
    exec .start s = .next (s.complete s.issuer 0#64) := by
  rw [exec_start ht, startStep_of_running _ hr]

/-- Settles O47: the first `START` leaves a Running block, where the second only answers 0 again. -/
theorem startIsIdempotent : Obligations.StartIsIdempotent := by
  refine fun s ht => ⟨exec_start_of_running ht, fun h => ?_⟩
  obtain ⟨hrunning, hanswered⟩ := startStep_running_and_answered s.issuer h
  have hsecond : exec .start (startStep s.issuer s) = .next (startStep s.issuer s) := by
    rw [exec_start_of_running (by rwa [startStep_tornDown]) hrunning, startStep_issuer, hanswered]
  simp only [execAll, exec_start ht, hsecond]

end Sys2Proof.Lifecycle
end

section
/-! SUPPORT. Exceptions of 60_exceptions.md, proved: what the record of a fault does to the host agents, and that `FAULT`
changes in no other way, whoever takes the step. -/

namespace Sys2Proof.Exceptions

open Sys2Proof.Machine

/-! ### The record of a fault -/

theorem raiseFault_hosts_self {s : State} {k : Nat} {a : HostAgent} (ha : s.hosts[k]? = some a) (c : FaultCode) :
    (s.raiseFault k c).hosts[k]? = some { a with hphase := .ready, resp := some 0#64 } := by
  simp [ha]

theorem raiseFault_hosts_ne (s : State) {j k : Nat} (h : j ≠ k) (c : FaultCode) :
    (s.raiseFault k c).hosts[j]? = s.hosts[j]? := by
  simp [h.symm]

/-! ### What a step may do to `FAULT` -/

/-- `FAULT` is left alone, or one fault is recorded in it (R165). -/
def LeavesOrRecords (old new : Byte) : Prop := new = old ∨ ∃ c, new = recordFault old c

theorem LeavesOrRecords.kept {old new : Byte} (h : LeavesOrRecords old new) (hold : old ≠ 0#8) : new = old := by
  obtain hleft | ⟨c, hrec⟩ := h
  · exact hleft
  · rw [hrec, recordFault_kept hold]

section
variable {s t : State}

@[simp] theorem startStep_fault (k : Nat) (s : State) : (startStep k s).fault = s.fault := by
  rcases startStep_cases k s with ⟨-, heq⟩ | ⟨-, -, heq⟩ | ⟨-, -, heq⟩ <;> rw [heq] <;> rfl

/-- A command's first step touches `FAULT` only by recording a fault. -/
theorem execEffect_fault (h : ExecEffect s t) : LeavesOrRecords s.fault t.fault := by
  cases h with
  | faulted c => exact .inr ⟨c, rfl⟩
  | started _ => exact .inl (startStep_fault s.issuer s)
  | _ => exact .inl rfl

/-- A host agent's turn records a fault in a command's first step, at a word that does not decode, or when teardown meets
a held `START`; its other turns leave `FAULT` alone. -/
theorem hostEffect_fault {k : Nat} (h : HostEffect k s t) : LeavesOrRecords s.fault t.fault := by
  cases h with
  | issued _ _ _ _ _ _ hexec => simpa using execEffect_fault hexec
  | undecoded _ c => exact .inr ⟨c, rfl⟩
  | startRefused => exact .inr ⟨.useAfterDispose, rfl⟩
  | startAgain => exact .inl (startStep_fault k (s.setPhase k .ready))
  | _ => exact .inl rfl

/-- The engine records no fault. -/
theorem engineEffect_fault (h : EngineEffect s t) : t.fault = s.fault := by
  cases h with
  | blank _ => exact s.measureStart_fault
  | measured _ => exact s.measureEnd_fault
  | _ => rfl

theorem step_fault (h : step s = .next t) : LeavesOrRecords s.fault t.fault := by
  obtain ⟨-, hengine⟩ | ⟨k, -, hhost⟩ := step_cases h
  · exact .inl (by simpa using engineEffect_fault (engineStep_effect hengine))
  · simpa using hostEffect_fault (hostStep_effect hhost)

end

/-- Settles O51: no agent's step touches `FAULT` but by the record of a fault, and that record keeps an earlier code. -/
theorem faultKeepsFirstCode : Obligations.FaultKeepsFirstCode :=
  ⟨fun s _ c _ ha => ⟨rfl, raiseFault_hosts_self ha c, fun _ hj => raiseFault_hosts_ne s hj c, rfl⟩,
    fun _ _ hstep hrecorded => (step_fault hstep).kept hrecorded⟩

end Sys2Proof.Exceptions
end

section
/-! SUPPORT. The encoding of 30_encoding.md, proved in both directions: the fields of a format read back what was placed
in them, and with the reserved bits 0 they are the whole word; so also for every line the assembler accepts. -/

namespace Sys2Proof.Encoding

open Sys2Proof.Machine

/-! ### The operands of a word -/

/-- An s16 field gives back the integer it was made from (R75). -/
theorem toInt_coordField {z : Int} (h : fitsS16 z = true) : (coordField z).toInt = z := by
  simp only [fitsS16, Bool.and_eq_true, decide_eq_true_eq] at h
  rw [coordField, BitVec.toInt_ofInt]
  exact Int.bmod_eq_of_le (by omega) (by omega)

theorem fitsS16_toInt (x : BitVec 16) : fitsS16 x.toInt = true := by
  have hlo := BitVec.le_toInt x
  have hhi := BitVec.toInt_lt (x := x)
  simp only [fitsS16, Bool.and_eq_true, decide_eq_true_eq]
  omega

@[simp] theorem coordField_colField (w : Word) : coordField (colField w) = w.extractLsb' 40 16 :=
  BitVec.ofInt_toInt

@[simp] theorem coordField_rowField (w : Word) : coordField (rowField w) = w.extractLsb' 24 16 :=
  BitVec.ofInt_toInt

@[simp] theorem roleOfBit_bit (sel : Role) : roleOfBit (sel.bit.getLsbD 0) = sel := by
  cases sel <;> rfl

@[simp] theorem bit_roleOfBit (w : Word) (k : Nat) : (roleOfBit (w.getLsbD k)).bit = w.extractLsb' k 1 := by
  refine BitVec.eq_of_getLsbD_eq fun j hj => ?_
  obtain rfl : j = 0 := by omega
  cases hb : w.getLsbD k <;> simp [roleOfBit, Role.bit, hb]

/-! ### Decoding an encoded command -/

/-- Every command's word carries its opcode and no reserved bit (R68 to R76). -/
theorem encodedRow (i : Instr) : Laws.EncodedRow.Statement i := by
  cases i with
  | setpixel col row r g b => exact Laws.EncodedRow.setpixel col row r g b
  | fill r g b => exact Laws.EncodedRow.fill r g b
  | decode sel col row => exact Laws.EncodedRow.decode sel col row
  | readbyte sel off => exact Laws.EncodedRow.readbyte sel off
  | setbase ns => exact Laws.EncodedRow.setbase ns
  | _ => exact Laws.encodeN_row _

/-- The fields of format P read back what was placed in them (R70). -/
theorem fields_encodeP (op : Byte) (col row : BitVec 16) (r g b : Byte) :
    let w := encodeP op col row r g b
    colField w = col.toInt ∧ rowField w = row.toInt ∧ rvField w = r ∧ gvField w = g ∧ bvField w = b := by
  refine ⟨congrArg BitVec.toInt ?_, congrArg BitVec.toInt ?_, ?_, ?_, ?_⟩ <;>
    ext k hk <;> interval_cases k <;> simp [encodeP, placeField, rvField, gvField, bvField]

/-- The fields of format F read back what was placed in them (R71). -/
theorem fields_encodeF (op r g b : Byte) :
    let w := encodeF op r g b
    rvField w = r ∧ gvField w = g ∧ bvField w = b := by
  refine ⟨?_, ?_, ?_⟩ <;>
    ext k hk <;> interval_cases k <;> simp [encodeF, placeField, rvField, gvField, bvField]

/-- The fields of format Q read back what was placed in them (R72). -/
theorem fields_encodeQ (op : Byte) (col row : BitVec 16) (sel : BitVec 1) :
    let w := encodeQ op col row sel
    colField w = col.toInt ∧ rowField w = row.toInt ∧ w.getLsbD 0 = sel.getLsbD 0 := by
  refine ⟨congrArg BitVec.toInt ?_, congrArg BitVec.toInt ?_, by simp [encodeQ, placeField]⟩ <;>
    ext k hk <;> interval_cases k <;> simp [encodeQ, placeField]

/-- The fields of format B read back what was placed in them (R73). -/
theorem fields_encodeB (op : Byte) (sel : BitVec 1) (off : U32) :
    let w := encodeB op sel off
    w.getLsbD 32 = sel.getLsbD 0 ∧ lowField w = off := by
  refine ⟨by simp [encodeB, placeField], ?_⟩
  ext k hk
  interval_cases k <;> simp [encodeB, placeField, lowField]

/-- The field of format D reads back what was placed in it (R74). -/
theorem lowField_encodeD (op : Byte) (ns : U32) : lowField (encodeD op ns) = ns := by
  ext k hk
  interval_cases k <;> simp [encodeD, placeField, lowField]

/-- Operand assembly is the inverse of the placing of the operands (R75). -/
theorem assemble_encode {i : Instr} (h : i.wellFormed = true) : assemble i.opcode (encode i) = i := by
  cases i with
  | setpixel col row r g b =>
    obtain ⟨hcol, hrow⟩ := Bool.and_eq_true_iff.mp h
    obtain ⟨hc, hr, hred, hgreen, hblue⟩ := fields_encodeP Opcode.SETPIXEL.code (coordField col) (coordField row) r g b
    simp only [Instr.opcode, encode, assemble, hc, hr, hred, hgreen, hblue, toInt_coordField hcol, toInt_coordField hrow]
  | fill r g b =>
    obtain ⟨hred, hgreen, hblue⟩ := fields_encodeF Opcode.FILL.code r g b
    simp only [Instr.opcode, encode, assemble, hred, hgreen, hblue]
  | decode sel col row =>
    obtain ⟨hcol, hrow⟩ := Bool.and_eq_true_iff.mp h
    obtain ⟨hc, hr, hsel⟩ := fields_encodeQ Opcode.DECODE.code (coordField col) (coordField row) sel.bit
    simp only [Instr.opcode, encode, assemble, hc, hr, hsel, roleOfBit_bit, toInt_coordField hcol, toInt_coordField hrow]
  | readbyte sel off =>
    obtain ⟨hsel, hoff⟩ := fields_encodeB Opcode.READBYTE.code sel.bit off
    simp only [Instr.opcode, encode, assemble, hsel, hoff, roleOfBit_bit]
  | setbase ns => simp only [Instr.opcode, encode, assemble, lowField_encodeD]
  | _ => rfl

/-- Settles O1: the opcode byte selects the command's own row, whose fields read back the operands. -/
theorem decodeOfEncode : Obligations.DecodeOfEncode := by
  intro i hwf
  obtain ⟨hop, hres⟩ := encodedRow i
  rw [decode_of_opField hop, if_pos hres, assemble_encode hwf]

/-! ### Encoding a decoded word -/

/-- A word that decodes has an assigned opcode, no reserved bit, and the operands in its fields (R77 to R80). -/
theorem decode_eq_ok {w : Word} {i : Instr} (h : decode w = .ok i) :
    ∃ op : Opcode, opField w = op.code ∧ w &&& op.format.resMask = 0#64 ∧ i = assemble op w := by
  unfold decode at h
  split at h
  · cases h
  next op hop =>
    have hcode : op.code = opField w := by simpa using List.find?_some hop
    split at h
    next hres => exact ⟨op, hcode.symm, hres, by injection h with h; exact h.symm⟩
    · cases h

theorem wellFormed_assemble (op : Opcode) (w : Word) : (assemble op w).wellFormed = true := by
  cases op with
  | SETPIXEL => exact Bool.and_eq_true_iff.mpr ⟨fitsS16_toInt _, fitsS16_toInt _⟩
  | DECODE => exact Bool.and_eq_true_iff.mpr ⟨fitsS16_toInt _, fitsS16_toInt _⟩
  | _ => rfl

/-- Whether bit `j` lies in the field of `n` bits from bit `l` on. -/
def inField (l n j : Nat) : Bool := decide (l ≤ j ∧ j < l + n)

/-- A field of a word, placed where it was read, is the word cut down to the field's bits. -/
theorem placeField_extract_getLsbD (w : Word) (l n : Nat) {j : Nat} (hj : j < 64) :
    (placeField (w.extractLsb' l n) l).getLsbD j = (inField l n j && w.getLsbD j) := by
  simp only [placeField, BitVec.getLsbD_shiftLeft, BitVec.getLsbD_setWidth, BitVec.getLsbD_extractLsb', inField]
  by_cases hl : l ≤ j
  · have hin : j - l < 64 := by omega
    have hback : l + (j - l) = j := by omega
    have hn : j - l < n ↔ j < l + n := by omega
    simp [hl, hj, hin, hback, hn]
  · simp [hl, hj, Nat.lt_of_not_le hl]

/-- A word without reserved bits is determined by its other bits: here `fields` says which those are. -/
theorem eq_of_fields {w x mask : Word} {fields : Nat → Bool} (hres : w &&& mask = 0#64)
    (hcover : ∀ j < 64, (!mask.getLsbD j) = fields j) (hx : ∀ j < 64, x.getLsbD j = (fields j && w.getLsbD j)) :
    x = w := by
  refine BitVec.eq_of_getLsbD_eq fun j hj => ?_
  have hbit : (w.getLsbD j && mask.getLsbD j) = false := by
    simpa using congrArg (fun y : Word => y.getLsbD j) hres
  rw [hx j hj, ← hcover j hj]
  cases hw : w.getLsbD j <;> simp_all

/-! The fields of each format cover exactly the bits outside its reserved mask (R69 to R74). -/

theorem encodeN_fields {w : Word} (h : w &&& Format.N.resMask = 0#64) : encodeN (opField w) = w :=
  eq_of_fields (fields := inField 56 8) h (by decide) fun _ hj => placeField_extract_getLsbD w 56 8 hj

theorem encodeP_fields (w : Word) :
    encodeP (opField w) (w.extractLsb' 40 16) (w.extractLsb' 24 16) (rvField w) (gvField w) (bvField w) = w :=
  eq_of_fields (mask := Format.P.resMask)
    (fields := fun j => inField 56 8 j || inField 40 16 j || inField 24 16 j || inField 16 8 j || inField 8 8 j
      || inField 0 8 j)
    BitVec.and_zero (by decide) fun _ hj => by
      simp only [encodeP, opField, rvField, gvField, bvField, BitVec.getLsbD_or, placeField_extract_getLsbD w _ _ hj,
        ← Bool.and_or_distrib_right]

theorem encodeF_fields {w : Word} (h : w &&& Format.F.resMask = 0#64) :
    encodeF (opField w) (rvField w) (gvField w) (bvField w) = w :=
  eq_of_fields (fields := fun j => inField 56 8 j || inField 16 8 j || inField 8 8 j || inField 0 8 j)
    h (by decide) fun _ hj => by
      simp only [encodeF, opField, rvField, gvField, bvField, BitVec.getLsbD_or, placeField_extract_getLsbD w _ _ hj,
        ← Bool.and_or_distrib_right]

theorem encodeQ_fields {w : Word} (h : w &&& Format.Q.resMask = 0#64) :
    encodeQ (opField w) (w.extractLsb' 40 16) (w.extractLsb' 24 16) (w.extractLsb' 0 1) = w :=
  eq_of_fields (fields := fun j => inField 56 8 j || inField 40 16 j || inField 24 16 j || inField 0 1 j)
    h (by decide) fun _ hj => by
      simp only [encodeQ, opField, BitVec.getLsbD_or, placeField_extract_getLsbD w _ _ hj, ← Bool.and_or_distrib_right]

theorem encodeB_fields {w : Word} (h : w &&& Format.B.resMask = 0#64) :
    encodeB (opField w) (w.extractLsb' 32 1) (lowField w) = w :=
  eq_of_fields (fields := fun j => inField 56 8 j || inField 32 1 j || inField 0 32 j)
    h (by decide) fun _ hj => by
      simp only [encodeB, opField, lowField, BitVec.getLsbD_or, placeField_extract_getLsbD w _ _ hj,
        ← Bool.and_or_distrib_right]

theorem encodeD_fields {w : Word} (h : w &&& Format.D.resMask = 0#64) : encodeD (opField w) (lowField w) = w :=
  eq_of_fields (fields := fun j => inField 56 8 j || inField 0 32 j) h (by decide) fun _ hj => by
    simp only [encodeD, opField, lowField, BitVec.getLsbD_or, placeField_extract_getLsbD w _ _ hj,
      ← Bool.and_or_distrib_right]

/-- The opcode and the operands of a word without reserved bits are the whole word. -/
theorem encode_assemble {w : Word} {op : Opcode} (hop : opField w = op.code) (hres : w &&& op.format.resMask = 0#64) :
    encode (assemble op w) = w := by
  cases op with
  | SETPIXEL =>
    simp only [assemble, encode, Instr.opcode, ← hop, coordField_colField, coordField_rowField]
    exact encodeP_fields w
  | FILL =>
    simp only [assemble, encode, Instr.opcode, ← hop]
    exact encodeF_fields hres
  | DECODE =>
    simp only [assemble, encode, Instr.opcode, ← hop, coordField_colField, coordField_rowField, bit_roleOfBit]
    exact encodeQ_fields hres
  | READBYTE =>
    simp only [assemble, encode, Instr.opcode, ← hop, bit_roleOfBit]
    exact encodeB_fields hres
  | SETBASE =>
    simp only [assemble, encode, Instr.opcode, ← hop]
    exact encodeD_fields hres
  | _ =>
    simp only [assemble, encode, Instr.opcode, ← hop]
    exact encodeN_fields hres

/-- Settles O2: a word that decodes is its opcode and its fields, and those are what is encoded. -/
theorem encodeOfDecode : Obligations.EncodeOfDecode := by
  intro w i h
  obtain ⟨op, hop, hres, rfl⟩ := decode_eq_ok h
  exact ⟨wellFormed_assemble op w, encode_assemble hop hres⟩

/-- Settles O5: the rows of R86, decoded. -/
theorem workedEncodingsDecode : Obligations.WorkedEncodingsDecode := by
  unfold Obligations.WorkedEncodingsDecode
  decide

/-! ### Lines of assembly -/

theorem s16Operand_eq_some {z y : Int} (h : s16Operand z = some y) : fitsS16 y = true := by
  unfold s16Operand at h
  split at h
  next hfits => injection h with h; rwa [← h]
  · cases h

theorem asmSetpixel_wellFormed {col row r g b : Int} {i : Instr} (h : asmSetpixel col row r g b = some i) :
    i.wellFormed = true := by
  simp only [asmSetpixel, Option.bind_eq_bind, Option.bind_eq_some_iff] at h
  obtain ⟨c, hc, d, hd, _, _, _, _, _, _, hi⟩ := h
  injection hi with hi
  subst hi
  exact Bool.and_eq_true_iff.mpr ⟨s16Operand_eq_some hc, s16Operand_eq_some hd⟩

theorem asmFill_wellFormed {r g b : Int} {i : Instr} (h : asmFill r g b = some i) : i.wellFormed = true := by
  simp only [asmFill, Option.bind_eq_bind, Option.bind_eq_some_iff] at h
  obtain ⟨_, _, _, _, _, _, hi⟩ := h
  injection hi with hi
  subst hi
  rfl

theorem asmDecode_wellFormed {sel : Role} {col row : Int} {i : Instr} (h : asmDecode sel col row = some i) :
    i.wellFormed = true := by
  simp only [asmDecode, Option.bind_eq_bind, Option.bind_eq_some_iff] at h
  obtain ⟨c, hc, d, hd, hi⟩ := h
  injection hi with hi
  subst hi
  exact Bool.and_eq_true_iff.mpr ⟨s16Operand_eq_some hc, s16Operand_eq_some hd⟩

theorem asmSetpixel24_wellFormed {col row rgb : Int} {i : Instr} (h : asmSetpixel24 col row rgb = some i) :
    i.wellFormed = true := by
  unfold asmSetpixel24 at h
  split at h
  · exact asmSetpixel_wellFormed h
  · cases h

/-- Only the coordinates have a range that their operand's type does not enforce, and the assembler tests it (R83). -/
theorem assembleCommand_wellFormed {m : Mnemonic} {ops : List AsmOperand} {i : Instr}
    (h : assembleCommand m ops = some i) : i.wellFormed = true := by
  unfold assembleCommand at h
  split at h
  next => exact asmSetpixel_wellFormed h
  next => exact asmFill_wellFormed h
  next => exact asmDecode_wellFormed h
  next => obtain ⟨_, _, rfl⟩ := Option.map_eq_some_iff.mp h; rfl
  case h_9 => obtain ⟨_, _, rfl⟩ := Option.map_eq_some_iff.mp h; rfl
  case h_16 => exact asmFill_wellFormed h
  case h_19 => exact asmSetpixel24_wellFormed h
  all_goals cases h <;> rfl

/-- An accepted line has a mnemonic and operands that assemble to its command (R83, R84). -/
theorem assembleLine_command {line : List Char} {i : Instr} (h : assembleLine line = .command i) :
    ∃ m ops, assembleCommand m ops = some i := by
  unfold assembleLine at h
  split at h
  · cases h
  split at h
  next m ops _ _ =>
    split at h
    next hcmd => cases h; exact ⟨m, ops, hcmd⟩
    · cases h
  · cases h

/-- Settles O7: the assembler gives only well-formed commands, and those survive the round trip of O1. -/
theorem assembledLinesAreWellFormed : Obligations.AssembledLinesAreWellFormed := by
  intro line i h
  obtain ⟨m, ops, hcmd⟩ := assembleLine_command h
  have hwf : i.wellFormed = true := assembleCommand_wellFormed hcmd
  exact ⟨hwf, encode i, by simp only [assembleWord, h], decodeOfEncode i hwf⟩

end Sys2Proof.Encoding
end

section
/-! SUPPORT. Which agent writes which state (R177), proved: the fields a host agent's step and the engine's step can write,
each as one equation that says where all the others come from, what a host agent does to the engine's cursors, and which
turns change nothing. -/

namespace Sys2Proof.Writers

open Sys2Proof.Machine

section
variable {k : Nat} {s t : State}

/-! ### What a host agent writes -/

/-- Every field outside the host agents' rows of the writer table (R177) is as it was. -/
def HostWrites (s t : State) : Prop :=
  t = { s with
    buf0 := t.buf0, buf1 := t.buf1, running := t.running, parked := t.parked, swapPending := t.swapPending
    disposing := t.disposing, disposed := t.disposed, fault := t.fault, baseNs := t.baseNs
    measureArmed := t.measureArmed, linesHeld := t.linesHeld, phase := t.phase, curH := t.curH, curI := t.curI
    curC := t.curC, hosts := t.hosts, issuer := t.issuer }

/-- How a host agent writes the fields it shares: the front buffer and the number of agents stay, four flags are only set
and `PARKED` is only cleared (R19, R177). -/
structure HostKeeps (s t : State) : Prop where
  frontBuf : t.buf s.front = s.buf s.front
  count : t.hosts.length = s.hosts.length
  swapPending : s.swapPending = true → t.swapPending = true
  parked : s.parked = false → t.parked = false
  measureArmed : s.measureArmed = true → t.measureArmed = true
  disposing : s.disposing = true → t.disposing = true
  disposed : s.disposed = true → t.disposed = true

/-- A change of the host agents' records that keeps their number is one a host agent may make. -/
theorem HostKeeps.modifyHost (f : HostAgent → HostAgent) : HostKeeps s (s.modifyHost k f) :=
  ⟨rfl, by simp, id, id, id, id, id⟩

theorem HostKeeps.trans {u : State} (h : HostKeeps s t) (hfront : t.front = s.front) (h' : HostKeeps t u) :
    HostKeeps s u :=
  ⟨(hfront ▸ h'.frontBuf).trans h.frontBuf, h'.count.trans h.count, h'.swapPending ∘ h.swapPending,
    h'.parked ∘ h.parked, h'.measureArmed ∘ h.measureArmed, h'.disposing ∘ h.disposing, h'.disposed ∘ h.disposed⟩

theorem startStep_hostWrites (k : Nat) (s : State) : HostWrites s (startStep k s) := by
  rcases startStep_cases k s with ⟨-, h⟩ | ⟨-, -, h⟩ | ⟨-, -, h⟩ <;> rw [h] <;> rfl

theorem startStep_hostKeeps (k : Nat) (s : State) : HostKeeps s (startStep k s) := by
  rcases startStep_cases k s with ⟨-, h⟩ | ⟨-, hp, h⟩ | ⟨-, -, h⟩ <;> rw [h]
  · exact .modifyHost _
  · exact ⟨rfl, by simp, id, fun hf => absurd hp (by simp [hf]), id, id, id⟩
  · exact .modifyHost _

theorem execEffect_hostWrites (h : ExecEffect s t) : HostWrites s t := by
  cases h with
  | started _ => exact startStep_hostWrites _ s
  | _ => rfl

theorem execEffect_hostKeeps (h : ExecEffect s t) : HostKeeps s t := by
  cases h with
  | started _ => exact startStep_hostKeeps _ s
  | pixel => exact ⟨s.buf_front_setBuf_back _, by simp, id, id, id, id, id⟩
  | filled => exact ⟨s.buf_front_setBuf_back _, by simp, id, id, id, id, id⟩
  | disposes => exact ⟨rfl, by simp, id, id, id, fun _ => rfl, id⟩
  | armed => exact ⟨rfl, by simp, id, id, fun _ => rfl, id, id⟩
  | _ => exact ⟨rfl, by simp, id, id, id, id, id⟩

theorem hostEffect_hostWrites (h : HostEffect k s t) : HostWrites s t := by
  cases h with
  | issued _ _ _ _ _ _ hexec =>
    have hw : HostWrites (s.issue k) t := execEffect_hostWrites hexec
    exact hw
  | startAgain => exact startStep_hostWrites k (s.setPhase k .ready)
  | _ => rfl

theorem hostEffect_hostKeeps (h : HostEffect k s t) : HostKeeps s t := by
  cases h with
  | held => exact ⟨rfl, rfl, id, id, id, id, id⟩
  | issued _ _ _ _ _ _ hexec =>
    have hissue : HostKeeps s (s.issue k) := ⟨rfl, by simp, id, id, id, id, id⟩
    exact hissue.trans rfl (execEffect_hostKeeps hexec)
  | startAgain => exact (HostKeeps.modifyHost _).trans rfl (startStep_hostKeeps k (s.setPhase k .ready))
  | posted => exact ⟨rfl, by simp, fun _ => rfl, id, id, id, id⟩
  | released => exact ⟨rfl, by simp, id, id, id, id, fun _ => rfl⟩
  | _ => exact ⟨rfl, by simp, id, id, id, id, id⟩

/-! ### What a host agent does to the sequencer -/

/-- The engine's phase and cursors stay. -/
def CursorsKept (s t : State) : Prop :=
  t.phase = s.phase ∧ t.curH = s.curH ∧ t.curI = s.curI ∧ t.curC = s.curC

/-- `START` of a Stopped block puts the engine at S1 with its cursors 0 (R141). -/
def StartsCycle (s t : State) : Prop :=
  s.parked = true ∧ t.phase = .s1 ∧ t.curH = 0#5 ∧ t.curI = 0#3 ∧ t.curC = 0#15

theorem startStep_cursors (k : Nat) (s : State) :
    CursorsKept s (startStep k s) ∨ StartsCycle s (startStep k s) := by
  rcases startStep_cases k s with ⟨-, h⟩ | ⟨-, hp, h⟩ | ⟨-, -, h⟩ <;> rw [h]
  · exact .inl ⟨rfl, rfl, rfl, rfl⟩
  · exact .inr ⟨hp, rfl, rfl, rfl, rfl⟩
  · exact .inl ⟨rfl, rfl, rfl, rfl⟩

theorem execEffect_cursors (h : ExecEffect s t) : CursorsKept s t ∨ StartsCycle s t := by
  cases h with
  | started _ => exact startStep_cursors _ s
  | _ => exact .inl ⟨rfl, rfl, rfl, rfl⟩

/-- A host agent moves the sequencer in one way only: by starting a parked engine (R132, R141). -/
theorem hostEffect_cursors (h : HostEffect k s t) : CursorsKept s t ∨ StartsCycle s t := by
  cases h with
  | issued _ _ _ _ _ _ hexec =>
    have hc : CursorsKept (s.issue k) t ∨ StartsCycle (s.issue k) t := execEffect_cursors hexec
    exact hc
  | startAgain => exact startStep_cursors k (s.setPhase k .ready)
  | _ => exact .inl ⟨rfl, rfl, rfl, rfl⟩

/-! ### What the engine writes -/

/-- Every field outside the engine's rows of the writer table (R177) is as it was. -/
def EngineWrites (s t : State) : Prop :=
  t = { s with
    front := t.front, parked := t.parked, swapPending := t.swapPending, swapGen := t.swapGen
    measureArmed := t.measureArmed, frameTimeNs := t.frameTimeNs, frameTimeValid := t.frameTimeValid, out := t.out
    phase := t.phase, curH := t.curH, curI := t.curI, curC := t.curC, latB := t.latB, t0 := t.t0, tm0 := t.tm0
    measActive := t.measActive, clockLast := t.clockLast, clockDraws := t.clockDraws, clockReads := t.clockReads
    trace := t.trace }

/-- How the engine writes the flags it shares: two are only cleared and `PARKED` is only set (R177). -/
structure EngineKeeps (s t : State) : Prop where
  swapPending : s.swapPending = false → t.swapPending = false
  parked : s.parked = true → t.parked = true
  measureArmed : s.measureArmed = false → t.measureArmed = false

theorem engineEffect_engineWrites (h : EngineEffect s t) : EngineWrites s t := by
  cases h with
  | blank _ => rcases s.measureStart_cases with ⟨-, hm⟩ | ⟨-, hm⟩ <;> rw [hm] <;> rfl
  | measured _ => rcases s.measureEnd_cases with ⟨-, hm⟩ | ⟨-, hm⟩ <;> rw [hm] <;> rfl
  | _ => rfl

theorem engineEffect_engineKeeps (h : EngineEffect s t) : EngineKeeps s t := by
  cases h with
  | blank _ =>
    refine ⟨by simp, by simp, fun harmed => ?_⟩
    rw [ScanEngine.measureStart_unarmed harmed]
    exact harmed
  | measured _ => exact ⟨by simp, by simp, by simp⟩
  | exchange => exact ⟨fun _ => rfl, id, id⟩
  | parks => exact ⟨id, fun _ => rfl, id⟩
  | _ => exact ⟨id, id, id⟩

/-! ### The writer table and the order of the phases -/

theorem agentStep_cases {a : Agent} (h : agentStep a s = .next t) :
    (a = .engine ∧ EngineEffect s t) ∨ ∃ k, a = .host k ∧ HostEffect k s t := by
  cases a with
  | engine => exact .inl ⟨rfl, engineStep_effect h⟩
  | host k => exact .inr ⟨k, rfl, hostStep_effect h⟩

theorem hostKeeps_fault (h : HostEffect k s t) (hs : s.fault ≠ 0#8) : t.fault = s.fault :=
  (Exceptions.hostEffect_fault h).kept hs

theorem phase_mem_next (h : EngineEffect s t) : t.phase ∈ s.phase.next := by
  cases h with
  | holdOn hp => simp [hp, Phase.next]
  | idle hp => simp [hp, Phase.next]
  | addrSet _ hp => simp [hp, Phase.next]
  | addrClr _ hp => simp [hp, Phase.next]
  | _ hp => simp [hp, Phase.next]

end

/-- Settles O11: each column of the table is one of the two equations, or a flag that moves one way. -/
theorem writerTable : Obligations.WriterTable := by
  intro s t
  refine ⟨fun a h => ?_, fun k h => ?_, fun h => ?_⟩
  · rcases agentStep_cases h with ⟨-, he⟩ | ⟨k, -, hh⟩
    · have hw := engineEffect_engineWrites he
      rw [hw]
      exact ⟨rfl, rfl, rfl, rfl, rfl, rfl, rfl, rfl, rfl, rfl⟩
    · have hw := hostEffect_hostWrites hh
      have hkeep := hostEffect_hostKeeps hh
      refine ⟨?_, ?_, ?_, ?_, ?_, ?_, hkeep.frontBuf, hkeep.count, ?_, ?_⟩ <;> rw [hw]
  · have hh := hostStep_effect h
    have hw := hostEffect_hostWrites hh
    have hkeep := hostEffect_hostKeeps hh
    refine ⟨?_, ?_, ?_, ?_, ?_, ?_, ?_, ?_, ?_, ?_, ?_, ?_, ?_, hkeep.swapPending, hkeep.parked, hkeep.measureArmed,
      hkeep.disposing, hkeep.disposed, hostKeeps_fault hh⟩ <;> rw [hw]
  · have he := engineStep_effect h
    have hw := engineEffect_engineWrites he
    have hkeep := engineEffect_engineKeeps he
    refine ⟨?_, ?_, ?_, ?_, ?_, ?_, ?_, ?_, ?_, ?_, hkeep.swapPending, hkeep.parked, hkeep.measureArmed⟩ <;> rw [hw]

/-- Settles O36: the one command that moves the cursors needs a parked engine, which is an `IDLE` one (R39). -/
theorem noMidCycleAbort : Obligations.NoMidCycleAbort := by
  refine ⟨fun s t k hflags hidle h => ?_, fun s t h => phase_mem_next (engineStep_effect h)⟩
  rcases hostEffect_cursors (hostStep_effect h) with hkept | ⟨hparked, -⟩
  · exact hkept
  · exact absurd (hflags.parkedIdle.mp hparked) hidle

/-! ### Turns that change nothing -/

section
variable {k : Nat} {s t : State}

/-- Outside `IDLE` every micro-step moves to another phase, or is a poll, which reads the clock. -/
theorem idle_of_engineEffect_self (h : EngineEffect s t) (heq : t = s) : s.phase = .idle := by
  have hphase : t.phase = s.phase := congrArg State.phase heq
  cases h with
  | idle hp => exact hp
  | holdOn _ _ => exact absurd (congrArg State.clockReads heq) (by simp)
  | addrSet _ hp => simp [hp] at hphase
  | addrClr _ hp => simp [hp] at hphase
  | _ hp => simp [hp] at hphase

/-- A change of one agent's record that keeps its program keeps every agent's. -/
theorem getElem?_modify_cmds {hosts : List HostAgent} {f : HostAgent → HostAgent} (hf : ∀ a, (f a).cmds = a.cmds)
    (i j : Nat) : ((hosts.modify i f)[j]?).map HostAgent.cmds = (hosts[j]?).map HostAgent.cmds := by
  rw [List.getElem?_modify]
  cases hosts[j]? with
  | none => rfl
  | some a =>
    by_cases hij : i = j
    · simp [hij, hf]
    · simp [hij]

/-- A command's first step takes no further word from any agent's program. -/
theorem execEffect_cmds (h : ExecEffect s t) (j : Nat) :
    (t.hosts[j]?).map HostAgent.cmds = (s.hosts[j]?).map HostAgent.cmds := by
  cases h with
  | started _ =>
    rcases startStep_cases s.issuer s with ⟨-, heq⟩ | ⟨-, -, heq⟩ | ⟨-, -, heq⟩ <;>
      simp only [heq, State.complete_hosts, State.setPhase_hosts, getElem?_modify_cmds, implies_true]
  | _ =>
    simp only [State.complete_hosts, State.raiseFault_hosts, State.setPhase_hosts, State.setBuf_hosts,
      getElem?_modify_cmds, implies_true]

/-- The issue of a word takes it from the agent's program, and nothing puts it back. -/
theorem issueWord_changes {a : HostAgent} {w : Word} {ws : List Word} (ha : s.hosts[k]? = some a)
    (hc : a.cmds = w :: ws) (h : issueWord k w s = .next t) : t ≠ s := by
  have hissued : ((s.issue k).hosts[k]?).map HostAgent.cmds = some ws := by simp [ha, hc]
  have hcmds : (t.hosts[k]?).map HostAgent.cmds = some ws := by
    rcases issueWord_cases h with ⟨i, -, hexec⟩ | ⟨e, -, rfl⟩
    · rw [execEffect_cmds (exec_effect hexec), hissued]
    · exact (execEffect_cmds (.faulted _ : ExecEffect (s.issue k) _) k).trans hissued
  rintro rfl
  simp [ha, hc] at hcmds

/-- The turn of an agent that ends in another phase of its command has changed the block. -/
theorem ne_of_phaseOf {a : HostAgent} {p : HPhase} (ha : s.hosts[k]? = some a) (ht : t.phaseOf k = some p)
    (hp : a.hphase ≠ p) : t ≠ s := by
  rintro rfl
  simp only [State.phaseOf, ha, Option.map_some, Option.some.injEq] at ht
  exact hp ht

theorem hostStep_eq {a : HostAgent} (ha : s.hosts[k]? = some a) : hostStep k s = hostAgentStep k a s := by
  simp only [hostStep, ha]

/-- A host agent whose hold condition is not met, or who has no word to issue, leaves the block alone. -/
theorem hostAgentStep_held {a : HostAgent} (h : hostAgentEnabled a s = false) : hostAgentStep k a s = .next s := by
  unfold hostAgentEnabled at h
  unfold hostAgentStep
  cases hp : a.hphase <;> simp only [hp] at h ⊢
  case ready =>
    cases hc : a.cmds with
    | nil => rfl
    | cons w ws => simp [hc] at h
  case swapPost => exact swapPostStep_held (by simpa using h)
  case swapWait => rw [← (by simpa using h : s.swapGen = a.g0)]; exact swapWaitStep_held
  case startWait => simp_all [startWaitStep]
  case dispWaitPark => simp [dispWaitParkStep, h]
  case dispRelease => cases h
  case dispWaitOther => simp [dispWaitOtherStep, h]

/-- An enabled host agent goes to another phase of its command, or issues its next word. -/
theorem hostAgentStep_changes {a : HostAgent} (ha : s.hosts[k]? = some a) (hen : hostAgentEnabled a s = true)
    (h : hostAgentStep k a s = .next t) : t ≠ s := by
  have hk : k < s.hosts.length := (List.getElem?_eq_some_iff.mp ha).1
  unfold hostAgentEnabled at hen
  rcases hostAgentStep_cases h with ⟨hp, hc, -⟩ | ⟨w, ws, -, hc, h⟩ | ⟨hp, h⟩ | ⟨hp, h⟩ | ⟨hp, h⟩ | ⟨hp, h⟩ |
    ⟨hp, h⟩ | ⟨hp, h⟩
  · simp [hp, hc] at hen
  · exact issueWord_changes ha hc h
  · simp only [hp, Bool.not_eq_true'] at hen
    simp only [swapPostStep, hen, Bool.false_eq_true, if_false, Host.Outcome.next.injEq] at h
    subst h
    exact ne_of_phaseOf (p := .swapWait) ha (by simp [State.phaseOf, ha]) (by simp [hp])
  · simp only [hp, decide_eq_true_eq] at hen
    simp only [swapWaitStep, if_neg hen, Host.Outcome.next.injEq] at h
    subst h
    exact ne_of_phaseOf ha (s.phaseOf_complete hk _) (by simp [hp])
  · simp only [hp] at hen
    rcases startWaitStep_cases h with ⟨-, rfl⟩ | ⟨hd, hs, -⟩ | ⟨-, hs, rfl⟩
    · exact ne_of_phaseOf (p := .ready) ha (by simp [State.phaseOf, ha]) (by simp [hp])
    · simp [hd, hs] at hen
    · rcases startStep_cases k (s.setPhase k .ready) with ⟨-, heq⟩ | ⟨-, -, heq⟩ | ⟨hr, hpk, -⟩
      · rw [heq]
        exact ne_of_phaseOf (p := .ready) ha (by simp [State.phaseOf, ha]) (by simp [hp])
      · rw [heq]
        exact ne_of_phaseOf (p := .ready) ha (by simp [State.phaseOf, ha]) (by simp [hp])
      · simp_all [State.isStopping]
  · simp only [hp] at hen
    simp only [dispWaitParkStep, hen, if_true, Host.Outcome.next.injEq] at h
    subst h
    exact ne_of_phaseOf ha (s.phaseOf_setPhase hk _) (by simp [hp])
  · simp only [dispReleaseStep, Host.Outcome.next.injEq] at h
    subst h
    exact ne_of_phaseOf (p := .ready) ha (by simp [State.phaseOf, ha]) (by simp [hp])
  · simp only [hp] at hen
    simp only [dispWaitOtherStep, hen, if_true, Host.Outcome.next.injEq] at h
    subst h
    exact ne_of_phaseOf ha (s.phaseOf_complete hk _) (by simp [hp])

theorem hostStep_self_iff : hostStep k s = .next s ↔ s.enabled (.host k) = false := by
  cases ha : s.hosts[k]? with
  | none => simp [hostStep, State.enabled, ha]
  | some a =>
    have henabled : s.enabled (.host k) = hostAgentEnabled a s := by simp [State.enabled, ha]
    rw [hostStep_eq ha, henabled]
    refine ⟨fun h => ?_, hostAgentStep_held⟩
    by_contra hen
    exact hostAgentStep_changes ha (by simpa using hen) h rfl

theorem engineStep_self_iff : engineStep s = .next s ↔ s.enabled .engine = false := by
  constructor
  · intro h
    simp [State.enabled, idle_of_engineEffect_self (engineStep_effect h) rfl]
  · intro h
    have hp : s.phase = .idle := by simpa [State.enabled] using h
    simp only [engineStep, hp]

end

/-- Settles O10: a step of an enabled agent shows in a phase, in the clock reads or in the agent's program. -/
theorem turnChangesNothingIffHeld : Obligations.TurnChangesNothingIffHeld := by
  intro s a
  cases a with
  | engine => exact engineStep_self_iff
  | host k => exact hostStep_self_iff

end Sys2Proof.Writers
end

section
/-! SUPPORT. The geometry and the output lines: the offset map and its inverse (R51), what the read-only tables hold
(R114 to R116), the address lines bit by bit, and which lines each micro-step can touch. -/

namespace Sys2Proof.Lines

open Sys2Proof.Machine

/-! ### The offset map -/

theorem offset_eq (width c h i : Nat) : offset width c h i = 8 * (c + width * h) + i := by
  simp only [offset]
  ring

/-- The byte of a column, a half-row and a plane lies in `[0, S)` (R51). -/
theorem offset_lt {width hr c h i : Nat} (hc : c < width) (hh : h < hr) (hi : i < 8) :
    offset width c h i < 8 * width * hr := by
  have hrow : width * (h + 1) ≤ width * hr := Nat.mul_le_mul_left _ hh
  have hstep : width * (h + 1) = width * h + width := Nat.mul_succ _ _
  rw [offset_eq, Nat.mul_assoc]
  omega

/-- The quotients and remainders of an offset give its triple back (R51). -/
theorem inverse_offset {width c h i : Nat} (hc : c < width) (hi : i < 8) :
    offsetCol width (offset width c h i) = c ∧ offsetRow width (offset width c h i) = h
      ∧ offsetPlane (offset width c h i) = i := by
  have hcell : offset width c h i / 8 = c + width * h := by rw [offset_eq]; omega
  refine ⟨?_, ?_, ?_⟩
  · rw [offsetCol, hcell, Nat.add_mul_mod_self_left, Nat.mod_eq_of_lt hc]
  · rw [offsetRow, ← Nat.div_div_eq_div_mul, hcell, Nat.add_mul_div_left _ _ (by omega), Nat.div_eq_of_lt hc,
      Nat.zero_add]
  · rw [offsetPlane, offset_eq, Nat.mul_add_mod, Nat.mod_eq_of_lt hi]

/-- Every offset is the offset of its quotients and remainders (R51). -/
theorem offset_inverse (width off : Nat) :
    offset width (offsetCol width off) (offsetRow width off) (offsetPlane off) = off := by
  rw [offset_eq, offsetCol, offsetRow, offsetPlane, ← Nat.div_div_eq_div_mul, Nat.mod_add_div, Nat.div_add_mod]

/-- Settles O12: an offset is 8 times a cell number plus a plane, and a cell number is a column plus `WIDTH` half-rows. -/
theorem offsetMapIsBijective : Obligations.OffsetMapIsBijective := by
  refine fun width hr => ⟨fun c h i => rfl, fun c h i hc hh hi => ?_, fun off hoff => ?_⟩
  · exact ⟨offset_lt hc hh hi, inverse_offset hc hi⟩
  · have hwidth : 0 < width := Nat.pos_of_ne_zero fun h0 => by simp [h0] at hoff
    exact ⟨Nat.mod_lt _ hwidth, Nat.div_lt_of_lt_mul hoff, Nat.mod_lt _ (by decide), offset_inverse width off⟩

/-! ### The colour mask -/

/-- Each half of the colour mask table shifts its pattern to its group's lines (R115). -/
theorem cmtTable_halves (q : BitVec 3) :
    cmtTable[q.toNat]'(by have := q.isLt; omega) = q.setWidth 14 ∧
      cmtTable[8 + q.toNat]'(by have := q.isLt; omega) = q.setWidth 14 <<< 3 := by
  revert q
  decide

theorem colorMask_eq {s : State} (h : s.TablesOk) (v : Byte) : s.colorMask v = (v &&& 0x3F#8).setWidth 14 := by
  obtain ⟨-, hcmt, -⟩ := h
  have hsplit : s.colorMask v = (v.extractLsb' 0 3).setWidth 14 ||| (v.extractLsb' 3 3).setWidth 14 <<< 3 := by
    simp only [State.colorMask, hcmt]
    rw [(cmtTable_halves _).1, (cmtTable_halves _).2]
  rw [hsplit]
  ext k hk
  interval_cases k <;> simp

/-- Settles O27: the two halves of the table put each group's three bits where they stand in the byte. -/
theorem colorMaskIsLowBits : Obligations.ColorMaskIsLowBits := fun _ v h => colorMask_eq h v

/-! ### The address lines -/

theorem addrLines_le (hr : Nat) : addrLines hr ≤ 5 := by
  unfold addrLines
  split_ifs <;> omega

/-- `NADDR` lines number every half-row (R8). -/
theorem le_two_pow_addrLines {hr : Nat} (h : hr ≤ 32) : hr ≤ 2 ^ addrLines hr := by
  unfold addrLines
  split_ifs <;> omega

/-- `ADDR_GROUP` is the first `NADDR` address lines (R8). -/
theorem addrGroup_getLsbD (hr k : Nat) : (addrGroup hr).getLsbD k = decide (6 ≤ k ∧ k < 6 + addrLines hr) := by
  have hle := addrLines_le hr
  simp only [addrGroup, BitVec.getLsbD_shiftLeft, BitVec.getLsbD_ofNat, Nat.testBit_two_pow_sub_one]
  by_cases h6 : 6 ≤ k
  · by_cases hk : k < 6 + addrLines hr
    · simp [h6, hk, show k < 14 by omega, show k - 6 < 14 by omega, show k - 6 < addrLines hr by omega]
    · simp [h6, hk, show ¬ k - 6 < addrLines hr by omega]
  · simp [h6, show k < 6 by omega]

theorem maskAddr_getLsbD (k : Nat) : maskAddr.getLsbD k = decide (6 ≤ k ∧ k < 11) := by
  by_cases hk : k < 14
  · interval_cases k <;> rfl
  · rw [BitVec.getLsbD_of_ge _ _ (by omega)]
    simp only [Bool.false_eq, decide_eq_false_iff_not]
    omega

/-- `ROWADDR[h]` has the bits of `h` on the address lines and no others (R114). -/
theorem rowAddrEntry_getLsbD {h : Nat} (hh : h < 32) (k : Nat) :
    (rowAddrEntry h).getLsbD k = (decide (6 ≤ k ∧ k < 11) && h.testBit (k - 6)) := by
  simp only [rowAddrEntry, BitVec.getLsbD_shiftLeft, BitVec.getLsbD_ofNat]
  by_cases h6 : 6 ≤ k
  · by_cases hk : k < 11
    · simp [h6, hk, show k < 14 by omega, show k - 6 < 14 by omega]
    · have hbit : h.testBit (k - 6) = false :=
        Nat.testBit_lt_two_pow (hh.trans_le (Nat.pow_le_pow_right Nat.zero_lt_two (by omega : 5 ≤ k - 6)))
      simp [hk, hbit]
  · simp [h6, show k < 6 by omega]

/-- No half-row number needs a line beyond the first `NADDR` (R8). -/
theorem testBit_unused {hr h j : Nat} (hr32 : hr ≤ 32) (hh : h < hr) (hj : addrLines hr ≤ j) : h.testBit j = false :=
  Nat.testBit_lt_two_pow
    ((hh.trans_le (le_two_pow_addrLines hr32)).trans_le (Nat.pow_le_pow_right Nat.zero_lt_two hj))

/-- The unused address lines are 0 (R35). -/
theorem unused_clear_iff (hr : Nat) (out : Lines) :
    out &&& unusedAddr hr = 0#14 ↔ ∀ k, 6 + addrLines hr ≤ k → k < 11 → out.getLsbD k = false := by
  have hbit : ∀ k, (unusedAddr hr).getLsbD k = decide (6 + addrLines hr ≤ k ∧ k < 11) := by
    intro k
    have hle := addrLines_le hr
    simp only [unusedAddr, BitVec.getLsbD_and, BitVec.getLsbD_not, maskAddr_getLsbD, addrGroup_getLsbD]
    by_cases hk : 6 + addrLines hr ≤ k ∧ k < 11
    · simp [hk.1, hk.2, show 6 ≤ k by omega, show k < 14 by omega]
    · simp only [hk, decide_false, Bool.and_eq_false_iff, decide_eq_false_iff_not, Bool.not_eq_false',
        decide_eq_true_eq]
      omega
  constructor
  · intro h k h1 h2
    have := congrArg (fun x : Lines => x.getLsbD k) h
    simpa [hbit, h1, h2] using this
  · intro h
    refine BitVec.eq_of_getLsbD_eq fun k hk => ?_
    simp only [BitVec.getLsbD_and, hbit, BitVec.getLsbD_zero]
    by_cases hin : 6 + addrLines hr ≤ k ∧ k < 11
    · simp [h k hin.1 hin.2]
    · simp [hin]

/-- The address lines are `h`, line by line (R119). -/
theorem address_eq_iff {h : Nat} (hh : h < 32) (out : Lines) :
    out &&& maskAddr = rowAddrEntry h ↔ ∀ k, 6 ≤ k → k < 11 → out.getLsbD k = h.testBit (k - 6) := by
  constructor
  · intro heq k h1 h2
    have := congrArg (fun x : Lines => x.getLsbD k) heq
    simpa [maskAddr_getLsbD, rowAddrEntry_getLsbD hh, h1, h2] using this
  · intro hbits
    refine BitVec.eq_of_getLsbD_eq fun k hk => ?_
    simp only [BitVec.getLsbD_and, maskAddr_getLsbD, rowAddrEntry_getLsbD hh]
    by_cases hin : 6 ≤ k ∧ k < 11
    · simp [hin, hbits k hin.1 hin.2]
    · simp [hin]

/-- The lines of `h` are set, line by line (R118). -/
theorem address_set_iff {h : Nat} (hh : h < 32) (out : Lines) :
    rowAddrEntry h &&& ~~~ out = 0#14 ↔
      ∀ k, 6 ≤ k → k < 11 → h.testBit (k - 6) = true → out.getLsbD k = true := by
  constructor
  · intro heq k h1 h2 hset
    have := congrArg (fun x : Lines => x.getLsbD k) heq
    simpa [rowAddrEntry_getLsbD hh, h1, h2, hset, show k < 14 by omega] using this
  · intro hbits
    refine BitVec.eq_of_getLsbD_eq fun k hk => ?_
    simp only [BitVec.getLsbD_and, BitVec.getLsbD_not, rowAddrEntry_getLsbD hh, BitVec.getLsbD_zero]
    by_cases hin : 6 ≤ k ∧ k < 11
    · cases hset : h.testBit (k - 6) with
      | false => simp
      | true => simp [hbits k hin.1 hin.2 hset]
    · simp [hin]

/-! ### The row address table -/

section
variable {s t : State}

/-- `ROWADDR` holds the address of every half-row, and nothing else (R24, R114). -/
theorem rowaddr_getElem? (h : s.TablesOk) (hh : s.curH.toNat < s.hr) :
    s.rowaddr[s.curH.toNat]? = some (rowAddrEntry s.curH.toNat) := by
  obtain ⟨htable, -⟩ := h
  simp [htable, rowAddrTable, hh]

theorem eq_rowAddrEntry {m : Lines} (h : s.TablesOk) (hm : s.rowaddr[s.curH.toNat]? = some m) :
    m = rowAddrEntry s.curH.toNat := by
  obtain ⟨htable, -⟩ := h
  rw [htable, rowAddrTable, List.getElem?_map, Option.map_eq_some_iff] at hm
  obtain ⟨j, hj, rfl⟩ := hm
  obtain ⟨hlt, hget⟩ := List.getElem?_eq_some_iff.mp hj
  rw [← hget, List.getElem_range]

/-! ### The lines each micro-step can touch -/

/-- The output lines that a micro-step's transaction can change (R117 to R131). -/
def engineLines : Phase → Lines
  | .s1 | .s9 => maskOe
  | .s2 | .s3 => maskAddr
  | .s4 => maskColor
  | .s5 | .s6 => maskClk
  | .s7 => maskOe ||| maskLat
  | .s8 => maskLat
  | .idle | .s10 | .s11 | .s12 | .s13 | .s14 | .s15 => 0#14

/-- `OE` moves in S1, S7 and S9 only, `LAT` in S7 and S8, `CLK` in S5 and S6, and the address lines in S2 and S3. -/
theorem engineLines_oe {p : Phase} : p ≠ .s1 → p ≠ .s7 → p ≠ .s9 → (engineLines p).getLsbD 13 = false := by
  cases p <;> decide

theorem engineLines_lat {p : Phase} : p ≠ .s7 → p ≠ .s8 → (engineLines p).getLsbD 12 = false := by
  cases p <;> decide

theorem engineLines_clk {p : Phase} : p ≠ .s5 → p ≠ .s6 → (engineLines p).getLsbD 11 = false := by
  cases p <;> decide

theorem engineLines_address {p : Phase} : p ≠ .s2 → p ≠ .s3 → engineLines p &&& maskAddr = 0#14 := by
  cases p <;> decide

/-- A line that is in neither mask of a transaction keeps its level (R49). -/
theorem applyLines_untouched {o x y : Lines} {k : Nat} (hx : x.getLsbD k = false) (hy : y.getLsbD k = false) :
    (applyLines o x y).getLsbD k = o.getLsbD k := by
  simp only [applyLines, BitVec.getLsbD_or, BitVec.getLsbD_and, BitVec.getLsbD_not, hx, hy]
  by_cases hk : k < 14
  · simp [hk]
  · simp [hk, BitVec.getLsbD_of_ge o k (by omega)]

theorem scanMask_eq (h : s.TablesOk) : s.scanMask = (s.readByte s.front s.scanOffset &&& 0x3F#8).setWidth 14 :=
  colorMask_eq h _

theorem scanMask_colour (h : s.TablesOk) {k : Nat} (hk : maskColor.getLsbD k = false) :
    s.scanMask.getLsbD k = false := by
  have hmask : maskColor = (0x3F#8).setWidth 14 := rfl
  rw [scanMask_eq h, BitVec.setWidth_and, BitVec.getLsbD_and, ← hmask, hk, Bool.and_false]

/-- A micro-step changes no line outside its own (R117 to R131). -/
theorem engineEffect_line (htab : s.TablesOk) (h : EngineEffect s t) {k : Nat}
    (hk : (engineLines s.phase).getLsbD k = false) : t.out.getLsbD k = s.out.getLsbD k := by
  have hzero : (0#14).getLsbD k = false := BitVec.getLsbD_zero
  cases h with
  | blank hp =>
    rw [hp] at hk
    exact (applyLines_untouched (o := s.measureStart.out) hk hzero).trans (by rw [State.measureStart_out])
  | addrSet m hp hm =>
    rw [hp] at hk
    refine applyLines_untouched ?_ hzero
    rw [eq_rowAddrEntry htab hm, rowAddrEntry_getLsbD s.curH.isLt, ← maskAddr_getLsbD]
    rw [show maskAddr.getLsbD k = false from hk, Bool.false_and]
  | addrClr m hp _ =>
    rw [hp] at hk
    refine applyLines_untouched hzero ?_
    have hgroup : (addrGroup s.hr).getLsbD k = false := by
      have hle := addrLines_le s.hr
      have hout : ¬ (6 ≤ k ∧ k < 11) := by
        simpa [maskAddr_getLsbD] using (show maskAddr.getLsbD k = false from hk)
      rw [addrGroup_getLsbD, decide_eq_false_iff_not]
      omega
    rw [BitVec.getLsbD_and, hgroup, Bool.false_and]
  | color hp _ =>
    rw [hp] at hk
    refine applyLines_untouched (scanMask_colour htab hk) ?_
    rw [BitVec.getLsbD_and, show maskColor.getLsbD k = false from hk, Bool.false_and]
  | clkHi hp | latchOn hp =>
    rw [hp] at hk
    exact applyLines_untouched hk hzero
  | nextColumn hp _ | lastColumn hp _ | latchOff hp | oeOff hp =>
    rw [hp] at hk
    exact applyLines_untouched hzero hk
  | measured _ => rw [State.measureEnd_out]
  | _ => rfl

end

end Sys2Proof.Lines
end

section
/-! SUPPORT. The invariant of every reachable state, proved part by part: what a host agent's step and the engine's step do
to the buffers, the cursors, the flags, the host agents, the lines and the clock latches. Then no run stops. -/

namespace Sys2Proof.Invariant

open Sys2Proof.Machine Sys2Proof.Writers Sys2Proof.Lines

/-! ### The buffers -/

/-- A canonical buffer that reads 0 outside `[0, size)` lists no byte there (R53). -/
theorem within_of_read {lo size : Nat} {m : Memory} (hm : Memory.wfFrom lo m = true)
    (h : ∀ a, size ≤ a → m.read a = Memory.unlisted) : m.within size = true := by
  induction m generalizing lo with
  | nil => rfl
  | cons cell rest ih =>
    obtain ⟨b, v⟩ := cell
    simp only [Memory.wfFrom, Bool.and_eq_true, decide_eq_true_eq] at hm
    obtain ⟨⟨-, hv⟩, hrest⟩ := hm
    have hb : b < size := by
      by_contra hge
      exact hv (by simpa [Memory.read] using h b (Nat.not_lt.mp hge))
    have htail : Memory.within size rest = true := by
      refine ih hrest fun a ha => ?_
      have hne : a ≠ b := by omega
      simpa [Memory.read, hne] using h a ha
    simpa [Memory.within, hb] using htail

/-- A drawing that touches only the six lanes of the bytes in `[0, size)` keeps the buffer as R22 and R53 want it. -/
theorem bufferOk_of_lanes {size : Nat} {m n : Memory} (hm : BufferOk size m) (hn : n.wf = true)
    (h : ∀ off k, ¬ (off < size ∧ k < 6) → (n.read off).getLsbD k = (m.read off).getLsbD k) : BufferOk size n := by
  obtain ⟨-, hwithin, hbits⟩ := hm
  refine ⟨hn, within_of_read hn fun a ha => ?_, fun off => ?_⟩
  · rw [← Memory.read_outside hwithin ha]
    exact BitVec.eq_of_getLsbD_eq fun k _ => h a k (by omega)
  · rw [← hbits off]
    refine BitVec.eq_of_getLsbD_eq fun k hk => ?_
    simp only [BitVec.getLsbD_and]
    by_cases h6 : k < 6
    · have hclear : (0xC0#8).getLsbD k = false := by interval_cases k <;> rfl
      simp only [hclear, Bool.and_false]
    · rw [h off k (by omega)]

theorem bufferOk_writePixel {s : State} (hH : 0 < s.hr) {m : Memory} (hm : BufferOk s.size m) {col row : Int}
    (hin : s.inBounds col row = true) (gr gg gb : Byte) :
    BufferOk s.size (writePixel m (s.pixelBase col row) (s.isUpper row) gr gg gb) := by
  obtain ⟨hwf, hread⟩ := writePixel_spec m hm.1 (s.pixelBase col row) (s.isUpper row) gr gg gb
  refine bufferOk_of_lanes hm hwf fun off k hout => ?_
  rw [hread]
  split
  next hpix =>
    have hoff : off < s.size := PixelEncoder.lt_size_of_inPixel hH hin ((PixelEncoder.inPixel_iff ..).mpr hpix)
    have hlane : k / 3 ≠ if s.isUpper row then 0 else 1 := by split <;> omega
    rw [PixelEncoder.put_getLsbD, if_neg hlane]
  · rfl

theorem bufferOk_fillMemory {size : Nat} {m : Memory} (hm : BufferOk size m) (gr gg gb : Byte) :
    BufferOk size (fillMemory m size gr gg gb) := by
  obtain ⟨hwf, hread⟩ := fillMemory_spec m hm.1 size gr gg gb
  refine bufferOk_of_lanes hm hwf fun off k hout => ?_
  rw [hread]
  split
  next hoff => rw [PixelEncoder.fillByte_getLsbD, if_neg (by omega)]
  · rfl

section
variable {k : Nat} {s t : State}

theorem bufferOk_buf (h : s.BuffersOk) (p : Bool) : BufferOk s.size (s.buf p) := by
  cases p
  · exact h.1
  · exact h.2

theorem buffersOk_setBuf (h : s.BuffersOk) (p : Bool) {m : Memory} (hm : BufferOk s.size m) :
    (s.setBuf p m).BuffersOk := by
  cases p
  · exact ⟨hm, h.2⟩
  · exact ⟨h.1, hm⟩

theorem execEffect_buffersOk (hH : 0 < s.hr) (hb : s.BuffersOk) (h : ExecEffect s t) : t.BuffersOk := by
  cases h with
  | pixel col row gr gg gb _ hin =>
    exact buffersOk_setBuf hb s.back (bufferOk_writePixel hH (bufferOk_buf hb _) hin gr gg gb)
  | filled gr gg gb => exact buffersOk_setBuf hb s.back (bufferOk_fillMemory (bufferOk_buf hb _) gr gg gb)
  | started _ =>
    rcases startStep_cases s.issuer s with ⟨-, heq⟩ | ⟨-, -, heq⟩ | ⟨-, -, heq⟩ <;> rw [heq] <;> exact hb
  | _ => exact hb

theorem hostEffect_buffersOk (hH : 0 < s.hr) (hb : s.BuffersOk) (h : HostEffect k s t) : t.BuffersOk := by
  cases h with
  | issued _ _ _ _ _ _ hexec => exact execEffect_buffersOk (s := s.issue k) hH hb hexec
  | startAgain =>
    rcases startStep_cases k (s.setPhase k .ready) with ⟨-, heq⟩ | ⟨-, -, heq⟩ | ⟨-, -, heq⟩ <;> rw [heq] <;> exact hb
  | _ => exact hb

/-! ### What the phase says of the lines -/

theorem oe_blanked (h : s.OeOk) (hp : s.phase = .s2 ∨ s.phase = .s3 ∨ s.phase = .s8 ∨ s.phase = .s9) :
    s.out.getLsbD 13 = true := by
  rcases hp with hp | hp | hp | hp <;> simpa only [State.OeOk, hp] using h

theorem oe_shifting (h : s.OeOk) (hp : s.phase = .s4 ∨ s.phase = .s5 ∨ s.phase = .s6 ∨ s.phase = .s7) :
    s.out.getLsbD 13 = decide (s.curI = 0#3) := by
  rcases hp with hp | hp | hp | hp <;> simpa only [State.OeOk, hp] using h

/-- The phases S10 to S15, in which `OE` is clear (R125). -/
def lit (p : Phase) : Bool := p.pastColumns && decide (p ≠ .s7 ∧ p ≠ .s8 ∧ p ≠ .s9)

theorem oe_lit (h : s.OeOk) (hp : lit s.phase = true) : s.out.getLsbD 13 = false := by
  unfold State.OeOk at h
  cases hph : s.phase <;> simp_all [lit, Phase.pastColumns]

/-- The phases S4 to S12, in which the address lines are `h` (R119, R128). -/
def addressed (p : Phase) : Bool :=
  decide (p ∈ [.s4, .s5, .s6, .s7, .s8, .s9, .s10, .s11, .s12])

theorem address_eq (h : s.AddrOk) (hp : addressed s.phase = true) :
    s.out &&& maskAddr = rowAddrEntry s.curH.toNat := by
  obtain ⟨-, h⟩ := h
  cases hph : s.phase <;> simp_all [addressed]

/-! ### A host agent's step -/

theorem cursorsOk_of_hostEffect (hgeo : s.GeometryOk) (hc : s.CursorsOk) (h : HostEffect k s t) : t.CursorsOk := by
  have hw := hostEffect_hostWrites h
  have hwidth : t.width = s.width := by rw [hw]
  have hhr : t.hr = s.hr := by rw [hw]; rfl
  rcases hostEffect_cursors h with ⟨hp, hh, hi, hcol⟩ | ⟨-, hp, hh, -, hcol⟩
  · simpa only [State.CursorsOk, hp, hh, hi, hcol, hwidth, hhr] using hc
  · obtain ⟨-, hpos, -⟩ := hc
    have hrows := PixelEncoder.hr_pos hgeo
    refine ⟨?_, ?_, fun _ => hcol, fun hpast => absurd hpast (by rw [hp]; decide)⟩
    · simpa [hh, hhr] using hrows
    · simp only [hcol, hwidth, BitVec.toNat_ofNat, Nat.zero_mod]
      omega

theorem oeOk_of_hostEffect (ho : s.OeOk) (h : HostEffect k s t) : t.OeOk := by
  have hout : t.out = s.out := by rw [hostEffect_hostWrites h]
  rcases hostEffect_cursors h with ⟨hp, -, hi, -⟩ | ⟨-, hp, -⟩
  · simpa only [State.OeOk, hp, hi, hout] using ho
  · simp only [State.OeOk, hp]

theorem addrOk_of_hostEffect (ha : s.AddrOk) (h : HostEffect k s t) : t.AddrOk := by
  have hw := hostEffect_hostWrites h
  have hout : t.out = s.out := by rw [hw]
  have hhr : t.hr = s.hr := by rw [hw]; rfl
  rcases hostEffect_cursors h with ⟨hp, hh, -, -⟩ | ⟨-, hp, -⟩
  · simpa only [State.AddrOk, hp, hh, hout, hhr] using ha
  · simpa only [State.AddrOk, hp, hout, hhr, and_true] using ha.1

theorem faultCode_recordFault {old : Byte} (h : old.toNat ≤ 4) (c : FaultCode) : (recordFault old c).toNat ≤ 4 := by
  unfold recordFault
  split
  · cases c <;> decide
  · exact h

/-- `START` meets the flags' invariant because it is refused once teardown has begun (R141, R166). -/
theorem startStep_flagsOk (k : Nat) (h : s.FlagsOk) (hd : s.disposing = false) : (startStep k s).FlagsOk := by
  rcases startStep_cases k s with ⟨-, heq⟩ | ⟨-, hp, heq⟩ | ⟨-, -, heq⟩ <;> rw [heq]
  · exact ⟨h.notBoth, h.parkedIdle, h.stopped, h.disposedParked, h.held, h.faultCode⟩
  · refine ⟨by simp, by simp, fun hd' => absurd hd' (by simp [hd]), fun hdd => ?_, h.held, h.faultCode⟩
    obtain ⟨hd', -⟩ := h.disposedParked hdd
    exact absurd hd' (by simp [hd])
  · exact ⟨h.notBoth, h.parkedIdle, h.stopped, h.disposedParked, h.held, h.faultCode⟩

theorem disposing_of_tornDown (h : s.tornDown = false) : s.disposing = false := by
  simp only [State.tornDown, Bool.or_eq_false_iff] at h
  exact h.1

theorem execEffect_flagsOk (h : s.FlagsOk) (he : ExecEffect s t) : t.FlagsOk := by
  cases he with
  | faulted c =>
    exact ⟨h.notBoth, h.parkedIdle, h.stopped, h.disposedParked, h.held, faultCode_recordFault h.faultCode c⟩
  | started ht => exact startStep_flagsOk _ h (disposing_of_tornDown ht)
  | stopped _ => exact ⟨by simp, h.parkedIdle, fun _ => rfl, h.disposedParked, h.held, h.faultCode⟩
  | disposes hdd _ =>
    exact ⟨by simp, h.parkedIdle, fun _ => rfl, fun hdd' => absurd hdd' (by simp [hdd]), h.held, h.faultCode⟩
  | _ => exact ⟨h.notBoth, h.parkedIdle, h.stopped, h.disposedParked, h.held, h.faultCode⟩

theorem hostEffect_flagsOk (h : s.FlagsOk) (hh : s.HostsOk) (he : HostEffect k s t) : t.FlagsOk := by
  cases he with
  | held => exact h
  | issued _ _ _ _ _ _ hexec =>
    have hissue : (s.issue k).FlagsOk :=
      ⟨h.notBoth, h.parkedIdle, h.stopped, h.disposedParked, h.held, h.faultCode⟩
    exact execEffect_flagsOk hissue hexec
  | undecoded _ c =>
    exact ⟨h.notBoth, h.parkedIdle, h.stopped, h.disposedParked, h.held, faultCode_recordFault h.faultCode c⟩
  | startRefused =>
    exact ⟨h.notBoth, h.parkedIdle, h.stopped, h.disposedParked, h.held, faultCode_recordFault h.faultCode _⟩
  | startAgain _ _ _ hd =>
    have hready : (s.setPhase k .ready).FlagsOk :=
      ⟨h.notBoth, h.parkedIdle, h.stopped, h.disposedParked, h.held, h.faultCode⟩
    exact startStep_flagsOk k hready hd
  | released a ha hp =>
    have hmem : a ∈ s.hosts := List.mem_of_getElem? ha
    have hcount : 0 < s.hosts.countP HostAgent.tearsDown :=
      List.countP_pos_iff.mpr ⟨a, hmem, by simp [HostAgent.tearsDown, hp]⟩
    have hdisposing : s.disposing = true := by
      by_contra hd
      rw [hh.oneTeardown] at hcount
      simp [hd] at hcount
    exact ⟨h.notBoth, h.parkedIdle, h.stopped, fun _ => ⟨hdisposing, hh.releaseParked a hmem hp⟩, rfl, h.faultCode⟩
  | _ => exact ⟨h.notBoth, h.parkedIdle, h.stopped, h.disposedParked, h.held, h.faultCode⟩

end

/-! ### One host agent's record changed -/

section
variable {α : Type} {l : List α} {k : Nat} {a b : α} {f : α → α}

theorem countP_modify (p : α → Bool) (ha : l[k]? = some a) (f : α → α) :
    (l.modify k f).countP p + (p a).toNat = l.countP p + (p (f a)).toNat := by
  induction l generalizing k with
  | nil => simp at ha
  | cons x rest ih =>
    cases k with
    | zero =>
      simp only [List.getElem?_cons_zero, Option.some.injEq] at ha
      subst ha
      simp only [List.modify_zero_cons, List.countP_cons]
      cases p x <;> cases p (f x) <;> simp
    | succ j =>
      have := ih (k := j) (by simpa using ha)
      simp only [List.modify_succ_cons, List.countP_cons]
      omega

theorem mem_modify_cases (hb : b ∈ l.modify k f) : b ∈ l ∨ ∃ a, l[k]? = some a ∧ b = f a := by
  obtain ⟨j, hj⟩ := List.mem_iff_getElem?.mp hb
  rw [List.getElem?_modify] at hj
  obtain ⟨c, hc, hcb⟩ := Option.map_eq_some_iff.mp hj
  by_cases hkj : k = j
  · subst hkj
    exact .inr ⟨c, hc, by simpa using hcb.symm⟩
  · left
    simp only [hkj, if_false] at hcb
    exact hcb ▸ List.mem_of_getElem? hc

theorem mem_modify_self (ha : l[k]? = some a) : f a ∈ l.modify k f :=
  List.mem_of_getElem? (i := k) (by simp [ha])

theorem mem_modify_of_ne (ha : l[k]? = some a) (hb : b ∈ l) (hne : b ≠ a) : b ∈ l.modify k f := by
  obtain ⟨j, hj⟩ := List.mem_iff_getElem?.mp hb
  have hkj : k ≠ j := by
    rintro rfl
    exact hne (Option.some.inj (hj.symm.trans ha))
  exact List.mem_of_getElem? (i := j) (by simp [hkj, hj])

end

section
variable {k : Nat} {s t : State} {a b : HostAgent}

/-- One agent's record goes from `a` to `b` while the flags go from those of `s` to those of `t`, and what the agents'
progress says of the flags survives it (R107, R145, R146, R148). -/
structure MovesHost (s t : State) (a b : HostAgent) : Prop where
  teardown : (if t.disposing && !t.disposed then 1 else 0) + a.tearsDown.toNat =
    (if s.disposing && !s.disposed then 1 else 0) + b.tearsDown.toNat
  release : b.hphase = .dispRelease → t.parked = true
  parked : s.parked = true → t.parked = true ∨ s.disposing = false
  waitOther : b.hphase = .dispWaitOther → t.disposing = true
  disposing : s.disposing = true → t.disposing = true
  poster : t.swapPending = true → (b.hphase = .swapWait ∧ b.g0 = t.swapGen) ∨
    (s.swapPending = true ∧ t.swapGen = s.swapGen ∧ ¬ (a.hphase = .swapWait ∧ a.g0 = s.swapGen))

theorem hostsOk_of_moves (h : s.HostsOk) (ha : s.hosts[k]? = some a) {f : HostAgent → HostAgent}
    (ht : t.hosts = s.hosts.modify k f) (hm : MovesHost s t a (f a)) : t.HostsOk where
  oneTeardown := by
    have hcount := countP_modify HostAgent.tearsDown ha f
    have hteardown := hm.teardown
    have hone := h.oneTeardown
    rw [ht]
    omega
  releaseParked := by
    intro c hc hp
    rw [ht] at hc
    rcases mem_modify_cases hc with hc | ⟨a', ha', rfl⟩
    · rcases hm.parked (h.releaseParked c hc hp) with hparked | hd
      · exact hparked
      · have hnone := h.oneTeardown
        rw [hd, Bool.false_and, if_neg Bool.false_ne_true, List.countP_eq_zero] at hnone
        exact absurd (by simp [HostAgent.tearsDown, hp]) (hnone c hc)
    · obtain rfl : a' = a := Option.some.inj (ha'.symm.trans ha)
      exact hm.release hp
  waitOther := by
    intro c hc hp
    rw [ht] at hc
    rcases mem_modify_cases hc with hc | ⟨a', ha', rfl⟩
    · exact hm.disposing (h.waitOther c hc hp)
    · obtain rfl : a' = a := Option.some.inj (ha'.symm.trans ha)
      exact hm.waitOther hp
  poster := by
    intro hpending
    rw [ht]
    rcases hm.poster hpending with hb | ⟨hs, hgen, hne⟩
    · exact ⟨f a, mem_modify_self ha, hb⟩
    · obtain ⟨c, hc, hwait, hg0⟩ := h.poster hs
      refine ⟨c, mem_modify_of_ne ha hc ?_, hwait, hgen ▸ hg0⟩
      rintro rfl
      exact hne ⟨hwait, hg0⟩

/-- The flags that the host agents' progress is held against. -/
def progressFlags (s : State) : Bool × Bool × Bool × Bool × U32 :=
  (s.disposing, s.disposed, s.parked, s.swapPending, s.swapGen)

/-- The phases in which an agent takes no part in a teardown and owns no pending swap. -/
def uninvolved (p : HPhase) : Bool := decide (p = .ready ∨ p = .swapPost ∨ p = .startWait)

/-- An agent that does not tear down and owns no pending swap may go to any phase in which it is uninvolved. -/
theorem MovesHost.plain (hflags : progressFlags t = progressFlags s) (ha : a.tearsDown = false)
    (hswap : a.hphase = .swapWait → a.g0 ≠ s.swapGen) (hb : uninvolved b.hphase = true) : MovesHost s t a b := by
  simp only [progressFlags, Prod.mk.injEq] at hflags
  obtain ⟨hd, hdd, hp, hsp, hsg⟩ := hflags
  simp only [uninvolved, decide_eq_true_eq] at hb
  have hb' : b.tearsDown = false := by rcases hb with hb | hb | hb <;> simp [HostAgent.tearsDown, hb]
  refine ⟨by rw [hd, hdd, ha, hb'], ?_, fun h => .inl (hp ▸ h), ?_, fun h => hd ▸ h, fun h => .inr ⟨hsp ▸ h, hsg, ?_⟩⟩
  · rcases hb with hb | hb | hb <;> simp [hb]
  · rcases hb with hb | hb | hb <;> simp [hb]
  · rintro ⟨hw, hg⟩
    exact hswap hw hg

/-- The same for an agent that is uninvolved before. -/
theorem MovesHost.uninvolved (hflags : progressFlags t = progressFlags s) (ha : uninvolved a.hphase = true)
    (hb : Invariant.uninvolved b.hphase = true) : MovesHost s t a b := by
  simp only [Invariant.uninvolved, decide_eq_true_eq] at ha
  exact .plain hflags (by rcases ha with ha | ha | ha <;> simp [HostAgent.tearsDown, ha])
    (by rcases ha with ha | ha | ha <;> simp [ha]) hb

theorem startStep_hostsOk (h : s.HostsOk) (ha : s.hosts[k]? = some a) (hp : a.hphase = .ready)
    (hd : s.disposing = false) : (startStep k s).HostsOk := by
  rcases startStep_cases k s with ⟨-, heq⟩ | ⟨-, -, heq⟩ | ⟨-, -, heq⟩ <;> rw [heq]
  · exact hostsOk_of_moves h ha rfl (.uninvolved rfl (by rw [hp]; rfl) rfl)
  · refine hostsOk_of_moves h ha rfl ⟨?_, by simp, fun _ => .inr hd, by simp, id, fun hs => .inr ⟨hs, rfl, by simp [hp]⟩⟩
    simp [HostAgent.tearsDown, hp]
  · exact hostsOk_of_moves h ha rfl (.uninvolved rfl (by rw [hp]; rfl) rfl)

theorem execEffect_hostsOk (h : s.HostsOk) (ha : s.hosts[s.issuer]? = some a) (hp : a.hphase = .ready)
    (he : ExecEffect s t) : t.HostsOk := by
  have hready : uninvolved a.hphase = true := by rw [hp]; rfl
  cases he with
  | started ht => exact startStep_hostsOk h ha hp (disposing_of_tornDown ht)
  | waitsOther _ hd =>
    refine hostsOk_of_moves h ha rfl ⟨?_, by simp, .inl, fun _ => hd, id, fun hs => .inr ⟨hs, rfl, by simp [hp]⟩⟩
    simp [HostAgent.tearsDown, hp]
  | disposes hdd hd =>
    refine hostsOk_of_moves h ha rfl
      ⟨?_, by simp, .inl, by simp, fun _ => rfl, fun hs => .inr ⟨hs, rfl, by simp [hp]⟩⟩
    simp [HostAgent.tearsDown, hp, hd, hdd]
  | _ => exact hostsOk_of_moves h ha rfl (.uninvolved rfl hready rfl)

/-- The issue of a word changes no agent's phase. -/
theorem issue_hostsOk (h : s.HostsOk) (ha : s.hosts[k]? = some a) (hp : a.hphase = .ready) : (s.issue k).HostsOk :=
  hostsOk_of_moves h ha rfl (.uninvolved rfl (by rw [hp]; rfl) (by rw [hp]; rfl))

theorem hostEffect_hostsOk (h : s.HostsOk) (he : HostEffect k s t) : t.HostsOk := by
  cases he with
  | held => exact h
  | issued a _ _ ha hp _ hexec =>
    exact execEffect_hostsOk (issue_hostsOk h ha hp) (a := { a with resp := none, cmds := a.cmds.tail })
      (by simp [ha]) hp hexec
  | undecoded a c ha hp _ =>
    exact execEffect_hostsOk (issue_hostsOk h ha hp) (a := { a with resp := none, cmds := a.cmds.tail })
      (by simp [ha]) hp (.faulted c)
  | posted a ha hp hs =>
    refine hostsOk_of_moves h ha rfl ⟨?_, by simp, .inl, by simp, id, fun _ => .inl ⟨rfl, rfl⟩⟩
    simp [HostAgent.tearsDown, hp]
  | swapped a ha hp hg =>
    exact hostsOk_of_moves h ha rfl (.plain rfl (by simp [HostAgent.tearsDown, hp]) (fun _ => hg.symm) rfl)
  | startRefused a ha hp _ => exact hostsOk_of_moves h ha rfl (.uninvolved rfl (by rw [hp]; rfl) rfl)
  | startAgain a ha hp hd _ =>
    have hready : (s.setPhase k .ready).HostsOk :=
      hostsOk_of_moves h ha rfl (.uninvolved rfl (by rw [hp]; rfl) rfl)
    exact startStep_hostsOk hready (a := { a with hphase := .ready }) (by simp [ha]) rfl hd
  | parkSeen a ha hp hparked =>
    refine hostsOk_of_moves h ha rfl
      ⟨?_, fun _ => hparked, .inl, by simp, id, fun hs => .inr ⟨hs, rfl, by simp [hp]⟩⟩
    simp [HostAgent.tearsDown, hp]
  | released a ha hp =>
    have hone : s.disposing = true ∧ s.disposed = false := by
      have hcount : 0 < s.hosts.countP HostAgent.tearsDown :=
        List.countP_pos_iff.mpr ⟨a, List.mem_of_getElem? ha, by simp [HostAgent.tearsDown, hp]⟩
      rw [h.oneTeardown] at hcount
      simpa using Nat.pos_iff_ne_zero.mp hcount
    refine hostsOk_of_moves h ha rfl ⟨?_, by simp, .inl, by simp, id, fun hs => .inr ⟨hs, rfl, by simp [hp]⟩⟩
    simp [HostAgent.tearsDown, hp, hone]
  | otherDone a ha hp _ =>
    exact hostsOk_of_moves h ha rfl (.plain rfl (by simp [HostAgent.tearsDown, hp]) (by simp [hp]) rfl)

/-- Every turn of a host agent keeps the invariant. -/
theorem hostEffect_inv (h : s.Inv) (he : HostEffect k s t) : t.Inv where
  geometry := by rw [hostEffect_hostWrites he]; exact h.geometry
  tables := by rw [hostEffect_hostWrites he]; exact h.tables
  buffers := hostEffect_buffersOk (PixelEncoder.hr_pos h.geometry) h.buffers he
  cursors := cursorsOk_of_hostEffect h.geometry h.cursors he
  flags := hostEffect_flagsOk h.flags h.hosts he
  hosts := hostEffect_hostsOk h.hosts he
  oe := oeOk_of_hostEffect h.oe he
  addr := addrOk_of_hostEffect h.addr he
  clock := by rw [hostEffect_hostWrites he]; exact h.clock

end

end Sys2Proof.Invariant
end

section
/-! SUPPORT. The invariant under the engine's steps, and the statements about the whole machine: every step keeps it, no run
stops, and construction meets it. -/

namespace Sys2Proof.Invariant

open Sys2Proof.Machine Sys2Proof.Writers Sys2Proof.Lines

section
variable {k : Nat} {s t : State}

/-! ### The engine's step -/

/-- The engine parks in S15 of a block that is not running, and otherwise neither parks nor leaves or enters `IDLE`
(R131). -/
theorem engineEffect_parked (h : EngineEffect s t) :
    (t.parked = s.parked ∧ (t.phase = .idle ↔ s.phase = .idle)) ∨
    (s.phase = .s15 ∧ s.running = false ∧ t.parked = true ∧ t.phase = .idle) := by
  cases h with
  | parks hp hr => exact .inr ⟨hp, hr, rfl, rfl⟩
  | idle => exact .inl ⟨rfl, Iff.rfl⟩
  | blank hp => exact .inl ⟨s.measureStart_parked, by simp [hp]⟩
  | measured hp => exact .inl ⟨s.measureEnd_parked, by simp [hp]⟩
  | addrSet _ hp => exact .inl ⟨rfl, by simp [hp]⟩
  | addrClr _ hp => exact .inl ⟨rfl, by simp [hp]⟩
  | _ hp => exact .inl ⟨rfl, by simp [hp]⟩

/-- The engine exchanges the buffers in S13 of half-row 0 with a swap pending, and otherwise leaves the roles, the pending
flag and `SWAP_GEN` alone (R102, R129). -/
theorem engineEffect_swap (h : EngineEffect s t) :
    (t.front = s.front ∧ t.swapGen = s.swapGen ∧ t.swapPending = s.swapPending) ∨
    (s.phase = .s13 ∧ s.curH = 0#5 ∧ s.swapPending = true ∧ t = { s.swapExchange with phase := .s14 }) := by
  cases h with
  | exchange hp hh hs => exact .inr ⟨hp, hh, hs, rfl⟩
  | blank => exact .inl ⟨s.measureStart_front, s.measureStart_swapGen, s.measureStart_swapPending⟩
  | measured => exact .inl ⟨s.measureEnd_front, s.measureEnd_swapGen, s.measureEnd_swapPending⟩
  | _ => exact .inl ⟨rfl, rfl, rfl⟩

theorem flagsOk_of_engineEffect (h : s.FlagsOk) (he : EngineEffect s t) : t.FlagsOk := by
  have hw := engineEffect_engineWrites he
  have hr : t.running = s.running := by rw [hw]
  have hd : t.disposing = s.disposing := by rw [hw]
  have hdd : t.disposed = s.disposed := by rw [hw]
  have hl : t.linesHeld = s.linesHeld := by rw [hw]
  have hf : t.fault = s.fault := by rw [hw]
  refine ⟨?_, ?_, by rw [hd, hr]; exact h.stopped, ?_, by rw [hl, hdd]; exact h.held, by rw [hf]; exact h.faultCode⟩
  · rw [hr]
    rcases engineEffect_parked he with ⟨hp, -⟩ | ⟨-, hstop, -⟩
    · rw [hp]; exact h.notBoth
    · simp [hstop]
  · rcases engineEffect_parked he with ⟨hp, hidle⟩ | ⟨-, -, hp, hidle⟩
    · rw [hp, hidle]; exact h.parkedIdle
    · simp [hp, hidle]
  · rw [hdd, hd]
    intro hdisposed
    obtain ⟨hdisposing, hparked⟩ := h.disposedParked hdisposed
    exact ⟨hdisposing, (engineEffect_engineKeeps he).parked hparked⟩

theorem hostsOk_of_engineEffect (h : s.HostsOk) (he : EngineEffect s t) : t.HostsOk := by
  have hw := engineEffect_engineWrites he
  have hhosts : t.hosts = s.hosts := by rw [hw]
  have hd : t.disposing = s.disposing := by rw [hw]
  have hdd : t.disposed = s.disposed := by rw [hw]
  refine ⟨by rw [hhosts, hd, hdd]; exact h.oneTeardown, fun a ha hp => ?_, by rw [hhosts, hd]; exact h.waitOther, ?_⟩
  · exact (engineEffect_engineKeeps he).parked (h.releaseParked a (hhosts ▸ ha) hp)
  · intro hs
    rcases engineEffect_swap he with ⟨-, hgen, hpending⟩ | ⟨-, -, -, rfl⟩
    · rw [hhosts, hgen]
      exact h.poster (hpending ▸ hs)
    · exact absurd hs (by simp)

theorem width_pos (h : s.GeometryOk) : 0 < s.width := by
  simp only [State.GeometryOk, geometryOk, Bool.and_eq_true, decide_eq_true_eq] at h
  omega

/-- The next column's number fits the 15 bits of the cursor (R7, R38). -/
theorem curC_succ_toNat (h : s.GeometryOk) (hm : s.moreColumns = true) :
    (s.curC + 1#15).toNat = s.curC.toNat + 1 ∧ s.curC.toNat + 1 < s.width := by
  have hw := ScanEngine.width_le h
  simp only [State.moreColumns, decide_eq_true_eq] at hm
  exact ⟨by bv_omega, hm⟩

theorem cursorsOk_of_engineEffect (hgeo : s.GeometryOk) (h : s.CursorsOk) (he : EngineEffect s t) : t.CursorsOk := by
  obtain ⟨hh, hc, hcol, hplane⟩ := h
  have hpast : ∀ {p : Phase}, s.phase = p → p.pastColumns = true → s.curC = 0#15 := fun hp h => hcol (hp ▸ h)
  have hlast : ∀ {p : Phase}, s.phase = p → p.pastPlanes = true → s.curI = 7#3 := fun hp h => hplane (hp ▸ h)
  have hno : ∀ {P : Prop}, false = true → P := fun h => absurd h Bool.false_ne_true
  cases he with
  | idle hp => exact ⟨hh, hc, hcol, hplane⟩
  | blank hp => exact ⟨by simpa [State.hr] using hh, by simpa using hc, hno, hno⟩
  | addrSet _ hp => exact ⟨hh, hc, hno, hno⟩
  | addrClr _ hp => exact ⟨hh, width_pos hgeo, hno, hno⟩
  | color hp => exact ⟨hh, hc, hno, hno⟩
  | clkHi hp => exact ⟨hh, hc, hno, hno⟩
  | nextColumn hp hm =>
    obtain ⟨hsucc, hlt⟩ := curC_succ_toNat hgeo hm
    exact ⟨hh, hsucc ▸ hlt, hno, hno⟩
  | lastColumn hp => exact ⟨hh, width_pos hgeo, fun _ => rfl, hno⟩
  | latchOn hp => exact ⟨hh, hc, fun _ => hpast hp rfl, hno⟩
  | latchOff hp => exact ⟨hh, hc, fun _ => hpast hp rfl, hno⟩
  | oeOff hp => exact ⟨hh, hc, fun _ => hpast hp rfl, hno⟩
  | holdStart hp => exact ⟨hh, hc, fun _ => hpast hp rfl, hno⟩
  | holdOn hp => exact ⟨hh, hc, hcol, hplane⟩
  | nextPlane hp => exact ⟨hh, hc, hno, hno⟩
  | lastPlane hp _ hi => exact ⟨hh, hc, fun _ => hpast hp rfl, fun _ => hi⟩
  | advance hp =>
    refine ⟨?_, hc, fun _ => hpast hp rfl, fun _ => hlast hp rfl⟩
    show (BitVec.ofNat 5 ((s.curH.toNat + 1) % s.hr)).toNat < s.hr
    rw [ScanEngine.ofNat_mod_hr_toNat hgeo]
    exact Nat.mod_lt _ (PixelEncoder.hr_pos hgeo)
  | exchange hp => exact ⟨hh, hc, fun _ => hpast hp rfl, fun _ => hlast hp rfl⟩
  | noExchange hp => exact ⟨hh, hc, fun _ => hpast hp rfl, fun _ => hlast hp rfl⟩
  | measured hp =>
    exact ⟨by simpa [State.hr] using hh, by simpa using hc, fun _ => by simpa using hpast hp rfl,
      fun _ => by simpa using hlast hp rfl⟩
  | again hp => exact ⟨hh, hc, hno, hno⟩
  | parks hp => exact ⟨hh, hc, hno, hno⟩

/-! ### The lines after an engine's step -/

theorem applyLines_asserted {o x y : Lines} {k : Nat} (hx : x.getLsbD k = true) : (applyLines o x y).getLsbD k = true := by
  simp [applyLines, hx]

theorem applyLines_cleared {o x y : Lines} {k : Nat} (hx : x.getLsbD k = false) (hy : y.getLsbD k = true) :
    (applyLines o x y).getLsbD k = false := by
  simp [applyLines, hx, hy]

theorem oeOk_of_engineEffect (htab : s.TablesOk) (h : s.OeOk) (he : EngineEffect s t) : t.OeOk := by
  have hline : ∀ {p : Phase}, s.phase = p → (engineLines p).getLsbD 13 = false → t.out.getLsbD 13 = s.out.getLsbD 13 :=
    fun hp hk => engineEffect_line htab he (hp ▸ hk)
  have hlit : ∀ {p : Phase}, s.phase = p → lit p = true → s.out.getLsbD 13 = false := fun hp hl => oe_lit h (hp ▸ hl)
  cases he with
  | idle => exact h
  | blank => exact applyLines_asserted rfl
  | addrSet _ hp => exact (hline hp rfl).trans (oe_blanked h (by simp [hp]))
  | addrClr _ hp => exact (hline hp rfl).trans (oe_blanked h (by simp [hp]))
  | color hp => exact (hline hp rfl).trans (oe_shifting h (by simp [hp]))
  | clkHi hp => exact (hline hp rfl).trans (oe_shifting h (by simp [hp]))
  | nextColumn hp => exact (hline hp rfl).trans (oe_shifting h (by simp [hp]))
  | lastColumn hp => exact (hline hp rfl).trans (oe_shifting h (by simp [hp]))
  | latchOn => exact applyLines_asserted rfl
  | latchOff hp => exact (hline hp rfl).trans (oe_blanked h (by simp [hp]))
  | oeOff => exact applyLines_cleared rfl rfl
  | holdStart hp => exact hlit hp rfl
  | holdOn => exact h
  | nextPlane hp _ hi =>
    have hne : s.curI + 1#3 ≠ 0#3 := by bv_omega
    exact (hlit hp rfl).trans (decide_eq_false hne).symm
  | lastPlane hp => exact hlit hp rfl
  | advance hp => exact hlit hp rfl
  | exchange hp => exact hlit hp rfl
  | noExchange hp => exact hlit hp rfl
  | measured hp => exact (hline hp rfl).trans (hlit hp rfl)
  | again => trivial
  | parks => trivial

/-- Outside S2 and S3 the engine leaves the address lines as they are (R190). -/
theorem engineEffect_address (htab : s.TablesOk) (he : EngineEffect s t) (h2 : s.phase ≠ .s2) (h3 : s.phase ≠ .s3) :
    t.out &&& maskAddr = s.out &&& maskAddr := by
  refine BitVec.eq_of_getLsbD_eq fun j hj => ?_
  simp only [BitVec.getLsbD_and]
  by_cases haddr : maskAddr.getLsbD j = true
  · have hline : (engineLines s.phase).getLsbD j = false := by
      simpa [haddr] using congrArg (fun x : Lines => x.getLsbD j) (engineLines_address h2 h3)
    rw [engineEffect_line htab he hline]
  · simp [haddr]

theorem engineEffect_hr (he : EngineEffect s t) : t.hr = s.hr := by
  rw [engineEffect_engineWrites he]
  rfl

/-- Outside S2 and S3 the unused address lines stay 0 with the others (R35). -/
theorem engineEffect_unused (htab : s.TablesOk) (h : s.AddrOk) (he : EngineEffect s t) (h2 : s.phase ≠ .s2)
    (h3 : s.phase ≠ .s3) : t.out &&& unusedAddr t.hr = 0#14 := by
  rw [engineEffect_hr he, unusedAddr, ← BitVec.and_assoc, engineEffect_address htab he h2 h3, BitVec.and_assoc]
  exact h.1

/-- S2 sets the lines of `h`, none of them unused (R118). -/
theorem addrOk_addrSet (hgeo : s.GeometryOk) (hh : s.curH.toNat < s.hr) (h : s.AddrOk) :
    ({ s with phase := .s3 }.outWrite (rowAddrEntry s.curH.toNat) 0#14).AddrOk := by
  have h32 : s.curH.toNat < 32 := s.curH.isLt
  refine ⟨(unused_clear_iff s.hr _).mpr fun k hlo hhi => ?_, (address_set_iff h32 _).mpr fun k hlo hhi hset => ?_⟩
  · have hold := (unused_clear_iff _ _).mp h.1 k hlo hhi
    have hbit := testBit_unused (ScanEngine.hr_le hgeo) hh (by omega : addrLines s.hr ≤ k - 6)
    rw [State.outWrite_out, applyLines_untouched (by rw [rowAddrEntry_getLsbD h32, hbit, Bool.and_false])
      BitVec.getLsbD_zero]
    exact hold
  · exact applyLines_asserted (by simp [rowAddrEntry_getLsbD h32, hlo, hhi, hset])

/-- S3 clears the other used lines, so the five lines are `h` (R119). -/
theorem addrOk_addrClr (hgeo : s.GeometryOk) (hh : s.curH.toNat < s.hr) (h : s.AddrOk) (hp : s.phase = .s3) :
    ({ s with phase := .s4, curI := 0#3, curC := 0#15 }.outWrite 0#14
      (addrGroup s.hr &&& ~~~ rowAddrEntry s.curH.toNat)).AddrOk := by
  have h32 : s.curH.toNat < 32 := s.curH.isLt
  have hunused := (unused_clear_iff _ _).mp h.1
  have hset : rowAddrEntry s.curH.toNat &&& ~~~ s.out = 0#14 := by simpa only [State.AddrOk, hp] using h.2
  have hout : ∀ k, k < 14 → (applyLines s.out 0#14 (addrGroup s.hr &&& ~~~ rowAddrEntry s.curH.toNat)).getLsbD k =
      (s.out.getLsbD k && (!decide (6 ≤ k ∧ k < 6 + addrLines s.hr) || (rowAddrEntry s.curH.toNat).getLsbD k)) := by
    intro k hk
    simp only [applyLines_getLsbD _ _ _ _ hk, BitVec.getLsbD_and, BitVec.getLsbD_not, addrGroup_getLsbD, hk,
      BitVec.getLsbD_zero, decide_true, Bool.true_and, Bool.or_false, Bool.not_and, Bool.not_not]
  refine ⟨(unused_clear_iff s.hr _).mpr fun k hlo hhi => ?_, (address_eq_iff h32 _).mpr fun k hlo hhi => ?_⟩
  · rw [State.outWrite_out, hout k (by omega), hunused k hlo hhi, Bool.false_and]
  · rw [State.outWrite_out, hout k (by omega), rowAddrEntry_getLsbD h32]
    by_cases hused : k < 6 + addrLines s.hr
    · cases hbit : s.curH.toNat.testBit (k - 6) with
      | false => simp [hlo, hused]
      | true => simp [hlo, hhi, (address_set_iff h32 _).mp hset k hlo hhi hbit]
    · have hbit := testBit_unused (ScanEngine.hr_le hgeo) hh (by omega : addrLines s.hr ≤ k - 6)
      rw [hunused k (by omega) hhi, hbit, Bool.false_and]

theorem addrOk_of_engineEffect (h : s.Inv) (he : EngineEffect s t) : t.AddrOk := by
  obtain ⟨hh, -⟩ := h.cursors
  have hunused : ∀ {p : Phase}, s.phase = p → p ≠ .s2 → p ≠ .s3 → t.out &&& unusedAddr t.hr = 0#14 :=
    fun hp h2 h3 => engineEffect_unused h.tables h.addr he (hp ▸ h2) (hp ▸ h3)
  have hkept : ∀ {p : Phase}, s.phase = p → p ≠ .s2 → p ≠ .s3 → addressed p = true →
      t.out &&& maskAddr = rowAddrEntry s.curH.toNat :=
    fun hp h2 h3 haddr => (engineEffect_address h.tables he (hp ▸ h2) (hp ▸ h3)).trans (address_eq h.addr (hp ▸ haddr))
  cases he with
  | idle => exact h.addr
  | holdOn => exact h.addr
  | addrSet m hp hm =>
    rw [eq_rowAddrEntry h.tables hm]
    exact addrOk_addrSet h.geometry hh h.addr
  | addrClr m hp hm =>
    rw [eq_rowAddrEntry h.tables hm]
    exact addrOk_addrClr h.geometry hh h.addr hp
  | color hp => exact ⟨hunused hp (by decide) (by decide), hkept hp (by decide) (by decide) rfl⟩
  | clkHi hp => exact ⟨hunused hp (by decide) (by decide), hkept hp (by decide) (by decide) rfl⟩
  | nextColumn hp => exact ⟨hunused hp (by decide) (by decide), hkept hp (by decide) (by decide) rfl⟩
  | lastColumn hp => exact ⟨hunused hp (by decide) (by decide), hkept hp (by decide) (by decide) rfl⟩
  | latchOn hp => exact ⟨hunused hp (by decide) (by decide), hkept hp (by decide) (by decide) rfl⟩
  | latchOff hp => exact ⟨hunused hp (by decide) (by decide), hkept hp (by decide) (by decide) rfl⟩
  | oeOff hp => exact ⟨hunused hp (by decide) (by decide), hkept hp (by decide) (by decide) rfl⟩
  | holdStart hp => exact ⟨hunused hp (by decide) (by decide), hkept hp (by decide) (by decide) rfl⟩
  | nextPlane hp => exact ⟨hunused hp (by decide) (by decide), hkept hp (by decide) (by decide) rfl⟩
  | lastPlane hp => exact ⟨hunused hp (by decide) (by decide), hkept hp (by decide) (by decide) rfl⟩
  | blank hp => exact ⟨hunused hp (by decide) (by decide), trivial⟩
  | advance hp => exact ⟨hunused hp (by decide) (by decide), trivial⟩
  | exchange hp => exact ⟨hunused hp (by decide) (by decide), trivial⟩
  | noExchange hp => exact ⟨hunused hp (by decide) (by decide), trivial⟩
  | measured hp => exact ⟨hunused hp (by decide) (by decide), trivial⟩
  | again hp => exact ⟨hunused hp (by decide) (by decide), trivial⟩
  | parks hp => exact ⟨hunused hp (by decide) (by decide), trivial⟩

/-! ### The clock latches -/

/-- The engine never turns the clock back (R41). -/
theorem engineEffect_clockLast (he : EngineEffect s t) : s.clockLast.toNat ≤ t.clockLast.toNat := by
  cases he with
  | blank =>
    rcases s.measureStart_cases with ⟨-, hm⟩ | ⟨-, hm⟩ <;> simp [hm, s.clockLast_le_value]
  | measured =>
    rcases s.measureEnd_cases with ⟨-, hm⟩ | ⟨-, hm⟩ <;> simp [hm, s.clockLast_le_value]
  | holdStart => exact s.clockLast_le_value
  | holdOn => exact s.clockLast_le_value
  | nextPlane => exact s.clockLast_le_value
  | lastPlane => exact s.clockLast_le_value
  | _ => exact le_rfl

/-- A latch of the clock keeps its value or takes that of the step's clock read (R117, R126). -/
theorem engineEffect_latches (he : EngineEffect s t) :
    (t.t0 = s.t0 ∨ t.t0 = t.clockLast) ∧ (t.tm0 = s.tm0 ∨ t.tm0 = t.clockLast) := by
  cases he with
  | blank => rcases s.measureStart_cases with ⟨-, hm⟩ | ⟨-, hm⟩ <;> rw [hm] <;> simp
  | measured => exact ⟨.inl s.measureEnd_t0, .inl s.measureEnd_tm0⟩
  | holdStart => exact ⟨.inr rfl, .inl rfl⟩
  | _ => exact ⟨.inl rfl, .inl rfl⟩

theorem clockOk_of_engineEffect (h : s.ClockOk) (he : EngineEffect s t) : t.ClockOk := by
  obtain ⟨ht0, htm0⟩ := h
  have hclock := engineEffect_clockLast he
  obtain ⟨h0 | h0, hm | hm⟩ := engineEffect_latches he <;> rw [State.ClockOk, h0, hm] <;> omega

/-- Every turn of the engine keeps the invariant. -/
theorem engineEffect_inv (h : s.Inv) (he : EngineEffect s t) : t.Inv where
  geometry := by rw [engineEffect_engineWrites he]; exact h.geometry
  tables := by rw [engineEffect_engineWrites he]; exact h.tables
  buffers := by rw [engineEffect_engineWrites he]; exact h.buffers
  cursors := cursorsOk_of_engineEffect h.geometry h.cursors he
  flags := flagsOk_of_engineEffect h.flags he
  hosts := hostsOk_of_engineEffect h.hosts he
  oe := oeOk_of_engineEffect h.tables h.oe he
  addr := addrOk_of_engineEffect h he
  clock := clockOk_of_engineEffect h.clock he

/-! ### Every step -/

/-- The invariant does not speak of the turns. -/
theorem endTurn_inv (h : s.Inv) : s.endTurn.Inv where
  geometry := h.geometry
  tables := h.tables
  buffers := h.buffers
  cursors := h.cursors
  flags := ⟨h.flags.notBoth, h.flags.parkedIdle, h.flags.stopped, h.flags.disposedParked, h.flags.held, h.flags.faultCode⟩
  hosts := ⟨h.hosts.oneTeardown, h.hosts.releaseParked, h.hosts.waitOther, h.hosts.poster⟩
  oe := h.oe
  addr := h.addr
  clock := h.clock

/-- What one step of the machine can do: an effect of the engine or of a host agent, with the turn used up (R57). -/
theorem step_effect (h : step s = .next t) :
    (s.nextAgent = .engine ∧ EngineEffect s.endTurn t) ∨ ∃ k, s.nextAgent = .host k ∧ HostEffect k s.endTurn t := by
  rcases step_cases h with ⟨ha, he⟩ | ⟨k, ha, hh⟩
  · exact .inl ⟨ha, engineStep_effect he⟩
  · exact .inr ⟨k, ha, hostStep_effect hh⟩

theorem step_inv (h : s.Inv) (hs : step s = .next t) : t.Inv := by
  rcases step_effect hs with ⟨-, he⟩ | ⟨k, -, hh⟩
  · exact engineEffect_inv (endTurn_inv h) he
  · exact hostEffect_inv (endTurn_inv h) hh

/-! ### No step stops -/

/-- The offset S4 reads lies in the front buffer (R53, R120). -/
theorem scanOffset_lt (h : s.CursorsOk) : s.scanOffset < s.size := by
  obtain ⟨hh, hc, -⟩ := h
  exact offset_lt hc hh s.curI.isLt

theorem exec_next (i : Instr) (s : State) : ∃ t, exec i s = .next t := by
  cases i <;> exact ⟨_, rfl⟩

theorem hostStep_next (k : Nat) (s : State) : ∃ t, hostStep k s = .next t := by
  unfold hostStep
  split
  next a _ =>
    unfold hostAgentStep
    split
    · split
      · exact ⟨_, rfl⟩
      · unfold issueWord
        split
        · exact exec_next _ _
        · exact ⟨_, rfl⟩
    all_goals exact ⟨_, rfl⟩
  · exact ⟨_, rfl⟩

/-- Only S2, S3 and S4 could stop, and the cursors keep them from it (R38, R45, R53). -/
theorem engineStep_next (htab : s.TablesOk) (h : s.CursorsOk) : ∃ t, engineStep s = .next t := by
  have hrow := rowaddr_getElem? htab h.1
  unfold engineStep
  split
  case h_3 => exact ⟨_, by rw [scanS2, hrow]⟩
  case h_4 => exact ⟨_, by rw [scanS3, hrow]⟩
  case h_5 => exact ⟨_, by rw [scanS4, if_pos (scanOffset_lt h)]⟩
  all_goals exact ⟨_, rfl⟩

theorem step_next (h : s.Inv) : ∃ t, step s = .next t := by
  show ∃ t, agentStep s.nextAgent s.endTurn = .next t
  cases s.nextAgent with
  | engine => exact engineStep_next (s := s.endTurn) h.tables h.cursors
  | host k => exact hostStep_next k _

/-! ### Construction -/

theorem fresh_hosts_ready (p : Params) : ∀ a ∈ (State.fresh p).hosts, a.hphase = .ready ∧ a.g0 = 0#32 := by
  intro a ha
  rw [List.eq_of_mem_replicate ha]
  exact ⟨rfl, rfl⟩

theorem geometry_of_legal {p : Params} (h : paramsLegal p = true) : (State.fresh p).GeometryOk := by
  simp only [paramsLegal, Bool.and_eq_true] at h
  exact h.1.1.1.1

/-- A block built with legal parameters meets the invariant (R42, R186). -/
theorem fresh_inv {p : Params} (h : paramsLegal p = true) : (State.fresh p).Inv := by
  have hgeo := geometry_of_legal h
  simp only [paramsLegal, Bool.and_eq_true, decide_eq_true_eq] at h
  obtain ⟨⟨⟨⟨-, hgamma⟩, hout⟩, -⟩, -⟩ := h
  have hready : ∀ a ∈ (State.fresh p).hosts, a.hphase = .ready := fun a ha => (fresh_hosts_ready p a ha).1
  have hempty : BufferOk (State.fresh p).size [] := ⟨rfl, rfl, fun _ => by simp [Memory.read, Memory.unlisted]⟩
  refine ⟨hgeo, ⟨rfl, rfl, hgamma⟩, ⟨hempty, hempty⟩, ⟨PixelEncoder.hr_pos hgeo, width_pos hgeo, ?_, ?_⟩,
    ⟨by simp [State.fresh], by simp [State.fresh], by simp [State.fresh], by simp [State.fresh], rfl, Nat.zero_le 4⟩,
    ⟨?_, ?_, ?_, by simp [State.fresh]⟩, trivial, ⟨hout, trivial⟩,
    ⟨le_rfl, le_rfl⟩⟩
  · exact fun hp => absurd (show false = true from hp) Bool.false_ne_true
  · exact fun hp => absurd (show false = true from hp) Bool.false_ne_true
  · exact List.countP_eq_zero.mpr fun a ha => by simp [HostAgent.tearsDown, hready a ha]
  · exact fun a ha hp => absurd hp (by simp [hready a ha])
  · exact fun a ha hp => absurd hp (by simp [hready a ha])

theorem fresh_readByte (p : Params) (b : Bool) (off : Nat) : (State.fresh p).readByte b off = 0#8 := by
  cases b <;> rfl

theorem fresh_rowaddr (p : Params) : (State.fresh p).rowaddr.length = p.rows / 2 ∧
    ∀ h, h < p.rows / 2 → (State.fresh p).rowaddr[h]? = some (BitVec.ofNat 14 h <<< 6) := by
  refine ⟨by simp [State.fresh, rowAddrTable, halfRows], fun h hh => ?_⟩
  simp [State.fresh, rowAddrTable, halfRows, rowAddrEntry, hh]

theorem cmtTable_entries (q : Nat) (hq : q < 8) :
    cmtTable[q] = BitVec.ofNat 14 q ∧ cmtTable[8 + q] = BitVec.ofNat 14 q <<< 3 := by
  interval_cases q <;> exact ⟨rfl, rfl⟩

/-! ### The reset instance -/

/-- The running maximum never falls, and 255 is above every byte (R23). -/
theorem nonDecreasing_gammaFrom (n k : Nat) (lo : Byte) : nonDecreasing (lo :: Config.gammaFrom n k lo) = true := by
  induction n generalizing k lo with
  | zero =>
    have hlo := lo.isLt
    simp only [Config.gammaFrom, nonDecreasing, Bool.and_true, decide_eq_true_eq, BitVec.toNat_ofNat]
    omega
  | succ n ih =>
    simp only [Config.gammaFrom, nonDecreasing, Bool.and_eq_true, decide_eq_true_eq]
    refine ⟨?_, ih _ _⟩
    split <;> omega

theorem gammaFrom_last (n k : Nat) (lo : Byte) : (Config.gammaFrom n k lo)[n]? = some 255#8 := by
  induction n generalizing k lo with
  | zero => rfl
  | succ n ih => simpa [Config.gammaFrom] using ih _ _

theorem gammaLegal_gamma : gammaLegal Config.gamma = true := by
  have hlast : Config.gamma[255] = 255#8 := by
    have hget : Config.gammaList[255]? = some 255#8 := gammaFrom_last 254 1 0#8
    obtain ⟨hlt, hvalue⟩ := List.getElem?_eq_some_iff.mp hget
    simp only [Config.gamma, Vector.getElem_mk, List.getElem_toArray, hvalue]
  simp only [gammaLegal, Bool.and_eq_true, decide_eq_true_eq]
  exact ⟨⟨rfl, hlast⟩, nonDecreasing_gammaFrom 254 1 0#8⟩

theorem outReset_unused : Config.outReset &&& unusedAddr (halfRows 32) = 0#14 := by
  have hmask : 0x3BFF#14 &&& unusedAddr (halfRows 32) = 0#14 := by decide
  rw [Config.outReset, BitVec.and_assoc, hmask, BitVec.and_zero]

theorem pinmapLegal_pinmap : pinmapLegal Config.pinmap = true := by
  unfold Config.pinmap
  split
  next h => exact h
  · decide

theorem paramsLegal_panel : paramsLegal Config.panel = true := by
  simp only [paramsLegal, Bool.and_eq_true, decide_eq_true_eq]
  exact ⟨⟨⟨⟨by decide, gammaLegal_gamma⟩, outReset_unused⟩, pinmapLegal_pinmap⟩, by decide⟩

end

/-- Settles O59: the step is an effect of the engine or of a host agent, and each keeps every part. -/
theorem stepKeepsInvariant : Obligations.StepKeepsInvariant := fun _ _ h hs => step_inv h hs

/-- Settles O60, by induction on the number of steps. -/
theorem noRunStops : Obligations.NoRunStops := by
  intro s n
  induction n generalizing s with
  | zero => exact fun h => ⟨s, rfl, h⟩
  | succ n ih =>
    intro h
    obtain ⟨t, ht⟩ := step_next h
    obtain ⟨u, hu, hinv⟩ := ih t (step_inv h ht)
    refine ⟨u, ?_, hinv⟩
    have hstep : Sys2Proof.core.step s = .next t := ht
    simp only [Host.Core.run, hstep]
    exact hu

/-- Settles O57: the two tests of construction, then the reset values as the state after them has them. -/
theorem constructionOutcomes : Obligations.ConstructionOutcomes := by
  intro p
  refine ⟨fun hgeo _ => by simp [State.construct, hgeo], fun hgeo => by simp [State.construct, hgeo], fun hgeo => ?_⟩
  obtain ⟨hlength, hrows⟩ := fresh_rowaddr p
  refine ⟨State.fresh p, by simp [State.construct, hgeo], rfl, rfl, rfl, rfl, hlength, hrows, cmtTable_entries,
    fresh_readByte p, rfl, rfl, rfl, rfl, rfl, rfl, rfl, rfl, rfl, rfl, rfl, rfl, rfl, rfl, rfl, rfl, rfl, rfl, rfl, rfl,
    rfl, rfl, List.length_replicate, fresh_hosts_ready p, fun hlegal => ⟨fresh_inv hlegal, fun hactive => ?_⟩⟩
  exact absurd (show false = true from hactive) Bool.false_ne_true

/-- Settles O58: the instance is a legal construction. -/
theorem resetMeetsInvariant : Obligations.ResetMeetsInvariant :=
  ⟨paramsLegal_panel, fresh_inv paramsLegal_panel⟩

end Sys2Proof.Invariant
end

section
/-! SUPPORT. What the observer sees and what stays off the lines: transactions come from the engine only, the reference
observer (R136 to R138) keeps up with it, and the display changes only where the engine or the release means it to. -/

namespace Sys2Proof.Display

open Sys2Proof.Machine Sys2Proof.Writers Sys2Proof.Lines Sys2Proof.Invariant

section
variable {k : Nat} {s t : State}

/-! ### Transactions -/

/-- A micro-step makes one transaction or leaves the lines alone (R49, R55). -/
theorem engineEffect_trace (he : EngineEffect s t) :
    (t.trace = s.trace ∧ t.out = s.out) ∨
    ∃ x y, t.trace = ⟨x, y, s.out⟩ :: s.trace ∧ t.out = applyLines s.out x y := by
  cases he with
  | blank => exact .inr ⟨maskOe, 0#14, by simp, by simp⟩
  | addrSet => exact .inr ⟨_, _, rfl, rfl⟩
  | addrClr => exact .inr ⟨_, _, rfl, rfl⟩
  | color => exact .inr ⟨_, _, rfl, rfl⟩
  | clkHi => exact .inr ⟨_, _, rfl, rfl⟩
  | nextColumn => exact .inr ⟨_, _, rfl, rfl⟩
  | lastColumn => exact .inr ⟨_, _, rfl, rfl⟩
  | latchOn => exact .inr ⟨_, _, rfl, rfl⟩
  | latchOff => exact .inr ⟨_, _, rfl, rfl⟩
  | oeOff => exact .inr ⟨_, _, rfl, rfl⟩
  | measured => exact .inl ⟨s.measureEnd_trace, s.measureEnd_out⟩
  | _ => exact .inl ⟨rfl, rfl⟩

/-- A parked engine has no step (R39, R112). -/
theorem engineEffect_idle (he : EngineEffect s t) (hp : s.phase = .idle) : t = s := by
  cases he with
  | idle => rfl
  | addrSet _ hp' => simp [hp] at hp'
  | addrClr _ hp' => simp [hp] at hp'
  | _ hp' => simp [hp] at hp'

/-- Outside `IDLE` the block is not disposed, so the engine holds its lines (R37, R39, R145). -/
theorem not_disposed_of_scanning (h : s.FlagsOk) (hp : s.phase ≠ .idle) : s.disposed = false ∧ s.linesHeld = true := by
  have hd : s.disposed = false := by
    by_contra hd
    obtain ⟨-, hparked⟩ := h.disposedParked (by simpa using hd)
    exact hp (h.parkedIdle.mp hparked)
  exact ⟨hd, by rw [h.held, hd]; rfl⟩

/-! ### The address lines and the levels of the pins -/

theorem addrLinesOut_of_step (h : s.Inv) (hs : step s = .next t) (hne : t.addrLinesOut ≠ s.addrLinesOut) :
    s.nextAgent = .engine ∧ (s.phase = .s2 ∨ s.phase = .s3) := by
  rcases step_effect hs with ⟨ha, he⟩ | ⟨k, -, hh⟩
  · refine ⟨ha, ?_⟩
    by_contra hp
    obtain ⟨h2, h3⟩ := not_or.mp hp
    exact hne (engineEffect_address (s := s.endTurn) h.tables he h2 h3)
  · exact absurd (by rw [State.addrLinesOut, hostEffect_hostWrites hh]; rfl) hne

/-- The lines that construction opens (R184): the colour lines, the first `NADDR` address lines, `CLK`, `LAT`, `OE`. -/
theorem usedLines_getLsbD (hr k : Nat) :
    (usedLines hr).getLsbD k = decide (k < 6 + addrLines hr ∨ (11 ≤ k ∧ k < 14)) := by
  have hle := addrLines_le hr
  by_cases hk : k < 14
  · simp only [usedLines, BitVec.getLsbD_or, addrGroup_getLsbD]
    interval_cases k <;> simp [maskColor, maskClk, maskLat, maskOe] <;> omega
  · rw [BitVec.getLsbD_of_ge _ _ (by omega)]
    simp only [Bool.false_eq, decide_eq_false_iff_not]
    omega

theorem pinLevel_used {p : Pin} (hl : s.linesHeld = true) (hk : k < 6 + addrLines s.hr ∨ (11 ≤ k ∧ k < 14))
    (hp : s.pinmap[k]? = some p) : s.pinLevel k = some (p.line, s.out.getLsbD k != p.activeLow) := by
  have hdriven : s.drivenLines.getLsbD k = true := by
    rw [State.drivenLines_held hl, usedLines_getLsbD, decide_eq_true hk]
  simp [State.pinLevel, hdriven, hp]

theorem pinLevel_unused (hlo : 6 + addrLines s.hr ≤ k) (hhi : k < 11) : s.pinLevel k = none := by
  refine State.pinLevel_undriven ?_
  unfold State.drivenLines
  split
  · rw [usedLines_getLsbD, decide_eq_false_iff_not]
    omega
  · exact BitVec.getLsbD_zero

/-- No step changes the geometry or `PINMAP` (R14, R34). -/
theorem step_frame (hs : step s = .next t) : t.hr = s.hr ∧ t.width = s.width ∧ t.pinmap = s.pinmap := by
  rcases step_effect hs with ⟨-, he⟩ | ⟨k, -, hh⟩
  · rw [engineEffect_engineWrites he]
    exact ⟨rfl, rfl, rfl⟩
  · rw [hostEffect_hostWrites hh]
    exact ⟨rfl, rfl, rfl⟩

theorem step_trace (h : s.Inv) (hs : step s = .next t) (hne : t.trace ≠ s.trace) :
    s.nextAgent = .engine ∧ s.disposed = false ∧ s.linesHeld = true := by
  rcases step_effect hs with ⟨ha, he⟩ | ⟨k, -, hh⟩
  · refine ⟨ha, not_disposed_of_scanning h.flags fun hp => hne ?_⟩
    rw [engineEffect_idle he hp]
    rfl
  · exact absurd (by rw [hostEffect_hostWrites hh]; rfl) hne

/-- Once the block is disposed nothing moves the lines, and it stays disposed with the engine `IDLE` (R150). -/
theorem step_disposed (h : s.Inv) (hs : step s = .next t) (hd : s.disposed = true) :
    t.out = s.out ∧ t.trace = s.trace ∧ t.phase = .idle ∧ t.disposed = true := by
  have hstays : t.out = s.out ∧ t.trace = s.trace ∧ t.disposed = true := by
    rcases step_effect hs with ⟨-, he⟩ | ⟨k, -, hh⟩
    · obtain ⟨-, hparked⟩ := h.flags.disposedParked hd
      rw [engineEffect_idle he (h.flags.parkedIdle.mp hparked)]
      exact ⟨rfl, rfl, hd⟩
    · refine ⟨?_, ?_, (hostEffect_hostKeeps hh).disposed hd⟩ <;> rw [hostEffect_hostWrites hh] <;> rfl
  obtain ⟨hout, htrace, hdisposed⟩ := hstays
  have hflags := (step_inv h hs).flags
  exact ⟨hout, htrace, hflags.parkedIdle.mp (hflags.disposedParked hdisposed).2, hdisposed⟩

/-! ### The observer's view of one micro-step -/

/-- Both of the observer's lines: a transaction that raises neither shows it nothing (R136, R137). -/
theorem transaction_of_no_rise {w : Nat} {tx : Transaction} (o : Observer) (hclk : tx.rises 11 = false)
    (hlat : tx.rises 12 = false) : o.transaction w tx = o := by
  simp [Observer.transaction, Observer.onClk, Observer.onLat, hclk, hlat]

theorem latched_of_no_rise {w : Nat} {tx : Transaction} (o : Observer) (hlat : tx.rises 12 = false) :
    (o.transaction w tx).latched = o.latched := by
  simp only [Observer.transaction, Observer.onLat, hlat, Bool.false_eq_true, if_false, Observer.onClk]
  split <;> rfl

theorem rises_of_eq {o x y : Lines} {j : Nat} (h : (applyLines o x y).getLsbD j = o.getLsbD j) :
    Transaction.rises ⟨x, y, o⟩ j = false := by
  simp only [Transaction.rises, Transaction.after, h, Bool.not_and_self]

/-- `LAT` rises in S7 only (R123). -/
theorem lat_of_engineEffect (htab : s.TablesOk) (he : EngineEffect s t) (h7 : s.phase ≠ .s7) :
    (!s.out.getLsbD 12 && t.out.getLsbD 12) = false := by
  by_cases h8 : s.phase = .s8
  · cases he with
    | latchOff =>
      have hclear : (applyLines s.out 0#14 maskLat).getLsbD 12 = false := applyLines_cleared rfl rfl
      rw [State.outWrite_out, hclear, Bool.and_false]
    | addrSet _ hp => simp [h8] at hp
    | addrClr _ hp => simp [h8] at hp
    | _ hp => simp [h8] at hp
  · rw [engineEffect_line htab he (engineLines_lat h7 h8), Bool.not_and_self]

/-- `CLK` rises in S5 only (R121). -/
theorem clk_of_engineEffect (htab : s.TablesOk) (he : EngineEffect s t) (h5 : s.phase ≠ .s5) :
    (!s.out.getLsbD 11 && t.out.getLsbD 11) = false := by
  by_cases h6 : s.phase = .s6
  · have hclear : (applyLines s.out 0#14 maskClk).getLsbD 11 = false := applyLines_cleared rfl rfl
    cases he with
    | nextColumn => rw [State.outWrite_out, hclear, Bool.and_false]
    | lastColumn => rw [State.outWrite_out, hclear, Bool.and_false]
    | addrSet _ hp => simp [h6] at hp
    | addrClr _ hp => simp [h6] at hp
    | _ hp => simp [h6] at hp
  · rw [engineEffect_line htab he (engineLines_clk h5 h6), Bool.not_and_self]

theorem engineEffect_width (he : EngineEffect s t) : t.width = s.width := by rw [engineEffect_engineWrites he]

theorem observer_cons {tx : Transaction} (hw : t.width = s.width) (ht : t.trace = tx :: s.trace) :
    t.observer = s.observer.transaction s.width tx := by
  simp only [State.observer, Observer.ofTrace, ht, hw, List.foldr_cons]

/-- Outside S5 and S7 the observer sees nothing new (R136, R137). -/
theorem engineEffect_observer (htab : s.TablesOk) (he : EngineEffect s t) (h5 : s.phase ≠ .s5) (h7 : s.phase ≠ .s7) :
    t.observer = s.observer := by
  have hw := engineEffect_width he
  rcases engineEffect_trace he with ⟨ht, -⟩ | ⟨x, y, ht, hout⟩
  · simp only [State.observer, ht, hw]
  · rw [observer_cons hw ht]
    refine transaction_of_no_rise _ ?_ ?_ <;> simp only [Transaction.rises, Transaction.after, ← hout]
    · exact clk_of_engineEffect htab he h5
    · exact lat_of_engineEffect htab he h7

/-- Only S7 latches (R137). -/
theorem engineEffect_latched (htab : s.TablesOk) (he : EngineEffect s t) (h7 : s.phase ≠ .s7) :
    t.observer.latched = s.observer.latched := by
  have hw := engineEffect_width he
  rcases engineEffect_trace he with ⟨ht, -⟩ | ⟨x, y, ht, hout⟩
  · simp only [State.observer, ht, hw]
  · rw [observer_cons hw ht]
    refine latched_of_no_rise _ ?_
    simp only [Transaction.rises, Transaction.after, ← hout]
    exact lat_of_engineEffect htab he h7

/-! ### The shift list -/

theorem keepLast_length_le (n : Nat) (l : List (BitVec 6)) : (keepLast n l).length ≤ n := by
  simp only [keepLast, List.length_drop]
  omega

/-- A suffix of at most `n` entries survives the cut to the last `n` (R136). -/
theorem suffix_keepLast {n : Nat} {x l : List (BitVec 6)} (h : x <:+ l) (hx : x.length ≤ n) : x <:+ keepLast n l := by
  refine List.suffix_of_suffix_length_le h (List.drop_suffix _ _) ?_
  have hle := h.length_le
  simp only [keepLast, List.length_drop]
  omega

theorem frontColumns_length (s : State) (i n : Nat) : (s.frontColumns i n).length = n := by
  simp [State.frontColumns]

theorem frontColumns_succ (s : State) (i n : Nat) :
    s.frontColumns i (n + 1) = s.frontColumns i n ++ [s.frontLanes i n] := by
  simp [State.frontColumns, List.range_succ]

/-- The front buffer's columns depend on the front buffer and the half-row alone. -/
theorem frontColumns_congr (hw : t.width = s.width) (hf : t.front = s.front) (hb : t.buf s.front = s.buf s.front)
    (hh : t.curH = s.curH) (i n : Nat) : t.frontColumns i n = s.frontColumns i n := by
  have hlanes : t.frontLanes i = s.frontLanes i := by
    funext c
    simp only [State.frontLanes, State.readByte, hw, hf, hb, hh]
  rw [State.frontColumns, hlanes, State.frontColumns]

/-- In S4 the colour lines take the byte's low six bits (R116, R120). -/
theorem laneBits_color (htab : s.TablesOk) :
    laneBits (applyLines s.out s.scanMask (maskColor &&& ~~~ s.scanMask)) = s.frontLanes s.curI.toNat s.curC.toNat := by
  refine BitVec.eq_of_getLsbD_eq fun k hk => ?_
  have hcolor : maskColor.getLsbD k = true := by interval_cases k <;> rfl
  have hlow : (0x3F#8).getLsbD k = true := by interval_cases k <;> rfl
  have hmask : s.scanMask.getLsbD k = (s.readByte s.front s.scanOffset).getLsbD k := by
    rw [scanMask_eq htab, BitVec.getLsbD_setWidth, BitVec.getLsbD_and, hlow, decide_eq_true (by omega : k < 14),
      Bool.true_and, Bool.and_true]
  have hout : (applyLines s.out s.scanMask (maskColor &&& ~~~ s.scanMask)).getLsbD k = s.scanMask.getLsbD k := by
    rw [applyLines_getLsbD _ _ _ _ (by omega), BitVec.getLsbD_and, BitVec.getLsbD_not, hcolor,
      decide_eq_true (by omega : k < 14)]
    cases s.scanMask.getLsbD k <;> simp
  rw [laneBits, BitVec.getLsbD_extractLsb', Nat.zero_add, hout, hmask, State.frontLanes, BitVec.getLsbD_setWidth]
  rfl

theorem laneBits_untouched {o x y : Lines} (h : ∀ j, j < 6 → x.getLsbD j = false ∧ y.getLsbD j = false) :
    laneBits (applyLines o x y) = laneBits o := by
  refine BitVec.eq_of_getLsbD_eq fun j hj => ?_
  obtain ⟨hx, hy⟩ := h j hj
  simp only [laneBits, BitVec.getLsbD_extractLsb', Nat.zero_add, applyLines_untouched hx hy]

/-- S5 raises `CLK`, so the observer shifts in the colour lanes (R121, R136). -/
theorem observer_clkHi (hclk : s.out.getLsbD 11 = false) :
    ({ s with phase := .s6 }.outWrite maskClk 0#14).observer =
      { s.observer with sr := keepLast s.width (s.observer.sr ++ [laneBits s.out]) } := by
  have hrise : Transaction.rises ⟨maskClk, 0#14, s.out⟩ 11 = true := by
    have hset : (applyLines s.out maskClk 0#14).getLsbD 11 = true := applyLines_asserted rfl
    simp only [Transaction.rises, Transaction.after, hclk, hset, Bool.not_false, Bool.and_self]
  have hlat : Transaction.rises ⟨maskClk, 0#14, s.out⟩ 12 = false := rises_of_eq (applyLines_untouched rfl rfl)
  have hcolour : ∀ j < 6, maskClk.getLsbD j = false := by decide
  have hlanes : laneBits (Transaction.after ⟨maskClk, 0#14, s.out⟩) = laneBits s.out :=
    laneBits_untouched fun j hj => ⟨hcolour j hj, BitVec.getLsbD_zero⟩
  show s.observer.transaction s.width ⟨maskClk, 0#14, s.out⟩ = _
  simp only [Observer.transaction, Observer.onClk, hrise, if_true, Observer.onLat, hlat, Bool.false_eq_true, if_false,
    hlanes]

/-- S7 raises `LAT`, so the observer latches a full shift list (R123, R137). -/
theorem observer_latchOn (hlat : s.out.getLsbD 12 = false) :
    ({ s with phase := .s8 }.outWrite (maskOe ||| maskLat) 0#14).observer =
      { s.observer with latched := if s.observer.sr.length = s.width then some s.observer.sr else none } := by
  have hrise : Transaction.rises ⟨maskOe ||| maskLat, 0#14, s.out⟩ 12 = true := by
    have hset : (applyLines s.out (maskOe ||| maskLat) 0#14).getLsbD 12 = true := applyLines_asserted rfl
    simp only [Transaction.rises, Transaction.after, hlat, hset, Bool.not_false, Bool.and_self]
  have hclk : Transaction.rises ⟨maskOe ||| maskLat, 0#14, s.out⟩ 11 = false := rises_of_eq (applyLines_untouched rfl rfl)
  show s.observer.transaction s.width ⟨maskOe ||| maskLat, 0#14, s.out⟩ = _
  simp only [Observer.transaction, Observer.onClk, hclk, Bool.false_eq_true, if_false, Observer.onLat, hrise, if_true]

/-! ### The observer's invariant under the engine -/

/-- `CLK` is high in S6 only, once it is so (R121, R122). -/
theorem clk_kept (htab : s.TablesOk) (h : s.DisplayOk) (he : EngineEffect s t) :
    t.out.getLsbD 11 = decide (t.phase = .s6) := by
  have hkept : ∀ {p : Phase}, s.phase = p → (engineLines p).getLsbD 11 = false →
      t.out.getLsbD 11 = decide (p = .s6) :=
    fun hp hk => (engineEffect_line htab he (hp ▸ hk)).trans (hp ▸ h.clk)
  cases he with
  | clkHi => exact applyLines_asserted rfl
  | nextColumn => exact applyLines_cleared rfl rfl
  | lastColumn => exact applyLines_cleared rfl rfl
  | idle => exact h.clk
  | holdOn => exact h.clk
  | addrSet _ hp => exact (hkept hp rfl).trans rfl
  | addrClr _ hp => exact (hkept hp rfl).trans rfl
  | _ hp => exact (hkept hp rfl).trans rfl

/-- `LAT` is high in S8 only, once it is so (R123, R124). -/
theorem lat_kept (htab : s.TablesOk) (h : s.DisplayOk) (he : EngineEffect s t) :
    t.out.getLsbD 12 = decide (t.phase = .s8) := by
  have hkept : ∀ {p : Phase}, s.phase = p → (engineLines p).getLsbD 12 = false →
      t.out.getLsbD 12 = decide (p = .s8) :=
    fun hp hk => (engineEffect_line htab he (hp ▸ hk)).trans (hp ▸ h.lat)
  cases he with
  | latchOn => exact applyLines_asserted rfl
  | latchOff => exact applyLines_cleared rfl rfl
  | idle => exact h.lat
  | holdOn => exact h.lat
  | addrSet _ hp => exact (hkept hp rfl).trans rfl
  | addrClr _ hp => exact (hkept hp rfl).trans rfl
  | _ hp => exact (hkept hp rfl).trans rfl

theorem clk_low (h : s.DisplayOk) (hp : s.phase ≠ .s6) : s.out.getLsbD 11 = false :=
  h.clk.trans (decide_eq_false hp)

theorem lat_low (h : s.DisplayOk) (hp : s.phase ≠ .s8) : s.out.getLsbD 12 = false :=
  h.lat.trans (decide_eq_false hp)

theorem short_kept (htab : s.TablesOk) (h : s.DisplayOk) (he : EngineEffect s t) :
    t.observer.sr.length ≤ t.width := by
  have hkept : ∀ {p : Phase}, s.phase = p → p ≠ .s5 → p ≠ .s7 → t.observer.sr.length ≤ t.width := by
    rintro p rfl h5 h7
    rw [engineEffect_observer htab he h5 h7, engineEffect_width he]
    exact h.short
  cases he with
  | clkHi hp =>
    rw [observer_clkHi (clk_low h (by simp [hp]))]
    exact keepLast_length_le _ _
  | latchOn hp =>
    rw [observer_latchOn (lat_low h (by simp [hp]))]
    exact h.short
  | addrSet _ hp => exact hkept hp (by decide) (by decide)
  | addrClr _ hp => exact hkept hp (by decide) (by decide)
  | _ hp => exact hkept hp (by decide) (by decide)

/-! What the invariant says of the shift list in the phases that shift (R121, R122). -/

theorem shifted_s4 (h : s.DisplayOk) (hp : s.phase = .s4) :
    s.frontColumns s.curI.toNat s.curC.toNat <:+ s.observer.sr := by
  simpa only [hp] using h.shifted

theorem shifted_s5 (h : s.DisplayOk) (hp : s.phase = .s5) :
    s.frontColumns s.curI.toNat s.curC.toNat <:+ s.observer.sr ∧
      laneBits s.out = s.frontLanes s.curI.toNat s.curC.toNat := by
  simpa only [hp] using h.shifted

theorem shifted_s6 (h : s.DisplayOk) (hp : s.phase = .s6) :
    s.frontColumns s.curI.toNat (s.curC.toNat + 1) <:+ s.observer.sr := by
  simpa only [hp] using h.shifted

theorem shifted_s7 (h : s.DisplayOk) (hp : s.phase = .s7) :
    s.observer.sr = s.frontColumns s.curI.toNat s.width := by
  simpa only [hp] using h.shifted

/-- What the invariant says of the latched plane while the next one is shifted. -/
theorem latched_shifting (h : s.DisplayOk) (hp : s.phase = .s4 ∨ s.phase = .s5 ∨ s.phase = .s6 ∨ s.phase = .s7)
    (hi : s.curI ≠ 0#3) : s.observer.latched = some (s.frontColumns (s.curI.toNat - 1) s.width) := by
  have hlatched := h.latched
  rcases hp with hp | hp | hp | hp <;> simp only [hp] at hlatched <;> exact hlatched hi

/-- What the invariant says of the latched plane from S8 to S12. -/
theorem latched_held (h : s.DisplayOk)
    (hp : s.phase = .s8 ∨ s.phase = .s9 ∨ s.phase = .s10 ∨ s.phase = .s11 ∨ s.phase = .s12) :
    s.observer.latched = some (s.frontColumns s.curI.toNat s.width) := by
  have hlatched := h.latched
  rcases hp with hp | hp | hp | hp | hp <;> simpa only [hp] using hlatched

/-- One more column is shifted in at the rise of `CLK` (R121, R136). -/
theorem shifted_clkHi (hc : s.CursorsOk) (h : s.DisplayOk) (hp : s.phase = .s5) :
    s.frontColumns s.curI.toNat (s.curC.toNat + 1) <:+
      ({ s with phase := .s6 }.outWrite maskClk 0#14).observer.sr := by
  obtain ⟨-, hcol, -⟩ := hc
  obtain ⟨⟨seen, hseen⟩, hlanes⟩ := shifted_s5 h hp
  rw [observer_clkHi (clk_low h (by simp [hp]))]
  refine suffix_keepLast ⟨seen, ?_⟩ ?_
  · rw [frontColumns_succ, ← List.append_assoc, hseen, hlanes]
  · rw [frontColumns_length]
    omega

/-- After the last column the shift list is the whole plane (R122, R136). -/
theorem shifted_lastColumn (hc : s.CursorsOk) (h : s.DisplayOk) (hp : s.phase = .s6) (hm : s.moreColumns = false) :
    s.observer.sr = s.frontColumns s.curI.toNat s.width := by
  obtain ⟨-, hcol, -⟩ := hc
  have hwidth : s.curC.toNat + 1 = s.width := by
    simp only [State.moreColumns, decide_eq_false_iff_not] at hm
    omega
  have hsuffix := shifted_s6 h hp
  rw [hwidth] at hsuffix
  exact (hsuffix.eq_of_length_le (by rw [frontColumns_length]; exact h.short)).symm

/-- Every turn of the engine keeps the observer in step: S5 shifts a column in, S7 latches the plane, and the cursors move
with them (R139). -/
theorem displayOk_of_engineEffect (hinv : s.Inv) (h : s.DisplayOk) (he : EngineEffect s t) : t.DisplayOk where
  clk := clk_kept hinv.tables h he
  lat := lat_kept hinv.tables h he
  short := short_kept hinv.tables h he
  shifted := by
    have hobs : ∀ {p : Phase}, s.phase = p → p ≠ .s5 → p ≠ .s7 → t.observer.sr = s.observer.sr := by
      rintro p rfl h5 h7
      rw [engineEffect_observer hinv.tables he h5 h7]
    cases he with
    | idle => exact h.shifted
    | holdOn => exact h.shifted
    | addrClr m hp => exact List.nil_suffix
    | color hp =>
      refine And.intro ?_ (laneBits_color hinv.tables)
      rw [hobs hp (by decide) (by decide)]
      exact shifted_s4 h hp
    | clkHi hp => exact shifted_clkHi hinv.cursors h hp
    | nextColumn hp hm =>
      show s.frontColumns s.curI.toNat (s.curC + 1#15).toNat <:+ _
      rw [(curC_succ_toNat hinv.geometry hm).1, hobs hp (by decide) (by decide)]
      exact shifted_s6 h hp
    | lastColumn hp hm => exact (hobs hp (by decide) (by decide)).trans (shifted_lastColumn hinv.cursors h hp hm)
    | nextPlane hp =>
      have hcol : s.curC = 0#15 := hinv.cursors.2.2.1 (by rw [hp]; rfl)
      show s.frontColumns (s.curI + 1#3).toNat s.curC.toNat <:+ _
      rw [hcol]
      exact List.nil_suffix
    | _ => trivial
  latched := by
    have hlat : ∀ {p : Phase}, s.phase = p → p ≠ .s7 → t.observer.latched = s.observer.latched := by
      rintro p rfl h7
      exact engineEffect_latched hinv.tables he h7
    cases he with
    | idle => exact h.latched
    | holdOn => exact h.latched
    | addrClr m hp => exact fun hi => absurd rfl hi
    | color hp => exact fun hi => (hlat hp (by decide)).trans (latched_shifting h (by simp [hp]) hi)
    | clkHi hp => exact fun hi => (hlat hp (by decide)).trans (latched_shifting h (by simp [hp]) hi)
    | nextColumn hp => exact fun hi => (hlat hp (by decide)).trans (latched_shifting h (by simp [hp]) hi)
    | lastColumn hp => exact fun hi => (hlat hp (by decide)).trans (latched_shifting h (by simp [hp]) hi)
    | latchOn hp =>
      show (({ s with phase := .s8 }.outWrite (maskOe ||| maskLat) 0#14).observer).latched = _
      rw [observer_latchOn (lat_low h (by simp [hp])), shifted_s7 h hp]
      exact if_pos (frontColumns_length ..)
    | latchOff hp => exact (hlat hp (by decide)).trans (latched_held h (by simp [hp]))
    | oeOff hp => exact (hlat hp (by decide)).trans (latched_held h (by simp [hp]))
    | holdStart hp => exact (hlat hp (by decide)).trans (latched_held h (by simp [hp]))
    | nextPlane hp _ hi =>
      have hplane : (s.curI + 1#3).toNat - 1 = s.curI.toNat := by bv_omega
      intro _
      show _ = some (s.frontColumns ((s.curI + 1#3).toNat - 1) s.width)
      rw [hplane]
      exact (hlat hp (by decide)).trans (latched_held h (by simp [hp]))
    | lastPlane hp => exact (hlat hp (by decide)).trans (latched_held h (by simp [hp]))
    | _ => trivial

/-! ### The observer's invariant under the host agents -/

/-- A host agent's step is not seen by the observer and leaves the front buffer alone (R19, R177). -/
theorem displayOk_of_hostEffect (hinv : s.Inv) (h : s.DisplayOk) (hh : HostEffect k s t) : t.DisplayOk := by
  have hw := hostEffect_hostWrites hh
  have hwidth : t.width = s.width := by rw [hw]
  have hout : t.out = s.out := by rw [hw]
  have hobs : t.observer = s.observer := by rw [hw]; rfl
  rcases hostEffect_cursors hh with ⟨hp, hcurH, hcurI, hcurC⟩ | ⟨hparked, hp, -⟩
  · have hfront : t.front = s.front := by rw [hw]
    have hcolumns : t.frontColumns = s.frontColumns := by
      funext i n
      exact frontColumns_congr hwidth hfront (hostEffect_hostKeeps hh).frontBuf hcurH i n
    have hlanes : t.frontLanes = s.frontLanes := by
      funext i c
      simp only [State.frontLanes, State.readByte, hwidth, hfront, (hostEffect_hostKeeps hh).frontBuf, hcurH]
    refine ⟨?_, ?_, ?_, ?_, ?_⟩ <;> simp only [hout, hp, hobs, hwidth, hcolumns, hlanes, hcurI, hcurC]
    · exact h.clk
    · exact h.lat
    · exact h.short
    · exact h.shifted
    · exact h.latched
  · have hidle := hinv.flags.parkedIdle.mp hparked
    refine ⟨?_, ?_, by rw [hobs, hwidth]; exact h.short, ?_, ?_⟩ <;> simp only [hp]
    · rw [hout, clk_low h (by simp [hidle])]
      rfl
    · rw [hout, lat_low h (by simp [hidle])]
      rfl

/-! ### What is shown -/

/-- The row address that the observer reads off the lines is `h` (R119, R138). -/
theorem lineAddress_eq {hr h : Nat} {out : Lines} (hr32 : hr ≤ 32) (hh : h < hr)
    (haddr : out &&& maskAddr = rowAddrEntry h) : lineAddress hr out = h := by
  have h32 : h < 32 := hh.trans_le hr32
  have hbits := (address_eq_iff h32 out).mp haddr
  have hvec : (out &&& addrGroup hr) >>> 6 = BitVec.ofNat 14 h := by
    refine BitVec.eq_of_getLsbD_eq fun j hj => ?_
    rw [BitVec.getLsbD_ushiftRight, BitVec.getLsbD_and, addrGroup_getLsbD, BitVec.getLsbD_ofNat, decide_eq_true hj,
      Bool.true_and]
    by_cases hused : j < addrLines hr
    · have hle := addrLines_le hr
      rw [hbits (6 + j) (by omega) (by omega), decide_eq_true (by omega), Bool.and_true, Nat.add_sub_cancel_left]
    · rw [decide_eq_false (by omega), Bool.and_false, testBit_unused hr32 hh (by omega)]
  rw [lineAddress, hvec, BitVec.toNat_ofNat]
  exact Nat.mod_eq_of_lt (h32.trans (by decide))

/-- While `OE` is clear and the lines are `h`, rows `h` and `h + H` show what is latched (R138). -/
theorem shown_row (hinv : s.Inv) (haddr : addressed s.phase = true) (hoe : s.out.getLsbD 13 = false) :
    s.shown = .rows ⟨s.curH.toNat, s.curH.toNat + s.hr, s.observer.latched⟩ := by
  have hidle : s.phase ≠ .idle := by
    intro hp
    rw [hp] at haddr
    exact absurd haddr (by decide)
  obtain ⟨hcurH, -⟩ := hinv.cursors
  have hline := lineAddress_eq (ScanEngine.hr_le hinv.geometry) hcurH (address_eq hinv.addr haddr)
  simp only [State.shown, (not_disposed_of_scanning hinv.flags hidle).2, hoe, hline, Bool.not_true, Bool.false_eq_true,
    if_false]

theorem shown_dark (hinv : s.Inv) (hp : s.phase = .s2 ∨ s.phase = .s3) : s.shown = .dark := by
  have hidle : s.phase ≠ .idle := by rcases hp with hp | hp <;> simp [hp]
  have hoe := oe_blanked hinv.oe (hp.elim .inl fun h => .inr (.inl h))
  simp only [State.shown, (not_disposed_of_scanning hinv.flags hidle).2, hoe, Bool.not_true, Bool.false_eq_true,
    if_false, if_true]

/-- A micro-step other than S1, S7 and S9 leaves the display alone: it keeps `OE`, and the address lines unless the output
is disabled (R138, R190). -/
theorem engineEffect_shown (hinv : s.Inv) (he : EngineEffect s t) (h1 : s.phase ≠ .s1) (h7 : s.phase ≠ .s7)
    (h9 : s.phase ≠ .s9) : t.shown = s.shown := by
  have hheld : t.linesHeld = s.linesHeld := by rw [engineEffect_engineWrites he]
  have hoe : t.out.getLsbD 13 = s.out.getLsbD 13 := engineEffect_line hinv.tables he (engineLines_oe h1 h7 h9)
  simp only [State.shown, hheld, hoe, engineEffect_hr he, engineEffect_latched hinv.tables he h7]
  by_cases h23 : s.phase = .s2 ∨ s.phase = .s3
  · rw [oe_blanked hinv.oe (h23.elim .inl fun h => .inr (.inl h))]
    rfl
  · obtain ⟨h2, h3⟩ := not_or.mp h23
    have hgroup : addrGroup s.hr = maskAddr &&& addrGroup s.hr := by
      refine BitVec.eq_of_getLsbD_eq fun j _ => ?_
      have hle := addrLines_le s.hr
      rw [BitVec.getLsbD_and, maskAddr_getLsbD, addrGroup_getLsbD, Bool.eq_iff_iff]
      simp only [Bool.and_eq_true, decide_eq_true_eq]
      omega
    have haddr : lineAddress s.hr t.out = lineAddress s.hr s.out := by
      rw [lineAddress, lineAddress, hgroup, ← BitVec.and_assoc, ← BitVec.and_assoc,
        engineEffect_address hinv.tables he h2 h3]
    rw [haddr]

theorem step_shown (hinv : s.Inv) (hs : step s = .next t) (hheld : t.linesHeld = s.linesHeld)
    (hne : ¬ (s.nextAgent = .engine ∧ (s.phase = .s1 ∨ s.phase = .s7 ∨ s.phase = .s9))) : t.shown = s.shown := by
  rcases step_effect hs with ⟨ha, he⟩ | ⟨k, -, hh⟩
  · have hphase : ¬ (s.phase = .s1 ∨ s.phase = .s7 ∨ s.phase = .s9) := fun hp => hne ⟨ha, hp⟩
    simp only [not_or] at hphase
    obtain ⟨h1, h7, h9⟩ := hphase
    exact engineEffect_shown (s := s.endTurn) (endTurn_inv hinv) he h1 h7 h9
  · have hw := hostEffect_hostWrites hh
    have hout : t.out = s.out := by rw [hw]; rfl
    have hhr : t.hr = s.hr := by rw [hw]; rfl
    have hobs : t.observer = s.observer := by rw [hw]; rfl
    simp only [State.shown, hheld, hout, hhr, hobs]

theorem endTurn_displayOk (h : s.DisplayOk) : s.endTurn.DisplayOk := ⟨h.clk, h.lat, h.short, h.shifted, h.latched⟩

end

/-! ### The statements -/

/-- Settles O40: the observer sees a column at each rise of `CLK` and a plane at each rise of `LAT`, and the engine makes
both at the right time. -/
theorem observerKeepsUp : Obligations.ObserverKeepsUp := by
  intro s t hinv h hs
  rcases step_effect hs with ⟨-, he⟩ | ⟨k, -, hh⟩
  · exact displayOk_of_engineEffect (endTurn_inv hinv) (endTurn_displayOk h) he
  · exact displayOk_of_hostEffect (endTurn_inv hinv) (endTurn_displayOk h) hh

/-- Settles O41: the display is the latched plane on the addressed rows while `OE` is clear, and dark in S2 and S3. -/
theorem heldPlaneIsShown : Obligations.HeldPlaneIsShown := by
  refine ⟨fun s hinv h => ⟨fun hp => ?_, fun hp hi => ?_, shown_dark hinv⟩, fun s t => step_shown⟩
  · have hoe := oe_lit hinv.oe (by rcases hp with hp | hp | hp <;> rw [hp] <;> rfl)
    rw [shown_row hinv (by rcases hp with hp | hp | hp <;> rw [hp] <;> rfl) hoe,
      latched_held h (.inr (.inr hp))]
  · have hoe := (oe_shifting hinv.oe hp).trans (decide_eq_false hi)
    rw [shown_row hinv (by rcases hp with hp | hp | hp | hp <;> rw [hp] <;> rfl) hoe, latched_shifting h hp hi]

/-- Settles O38: S2 and S3 alone move the address lines, between the S1 that asserts `OE` and the S9 that clears it. -/
theorem blankBeforeReaddress : Obligations.BlankBeforeReaddress := by
  intro s hinv
  have hblank : (s.phase = .s2 ∨ s.phase = .s3) → s.out.getLsbD 13 = true :=
    fun hp => oe_blanked hinv.oe (hp.elim .inl fun h => .inr (.inl h))
  refine ⟨fun t hs hne => ?_, hblank, fun hi hp => ?_⟩
  · obtain ⟨ha, hp⟩ := addrLinesOut_of_step hinv hs hne
    rcases step_effect hs with ⟨-, he⟩ | ⟨k, hk, -⟩
    · have hline : t.out.getLsbD 13 = s.out.getLsbD 13 :=
        engineEffect_line (s := s.endTurn) hinv.tables he (by rcases hp with hp | hp <;> simp [hp, engineLines] <;> rfl)
      exact ⟨ha, hp, hblank hp, hline.trans (hblank hp)⟩
    · simp [ha] at hk
  · rcases hp with hp | hp | hp | hp | hp | hp
    · rw [oe_shifting hinv.oe (.inl hp), decide_eq_true hi]
    · rw [oe_shifting hinv.oe (.inr (.inl hp)), decide_eq_true hi]
    · rw [oe_shifting hinv.oe (.inr (.inr (.inl hp))), decide_eq_true hi]
    · rw [oe_shifting hinv.oe (.inr (.inr (.inr hp))), decide_eq_true hi]
    · exact oe_blanked hinv.oe (.inr (.inr (.inl hp)))
    · exact oe_blanked hinv.oe (.inr (.inr (.inr hp)))

/-- Settles O39: the engine of a disposed block is parked, so the release is the last thing that happens to the lines. -/
theorem noTransactionAfterRelease : Obligations.NoTransactionAfterRelease := by
  intro s t hinv hs
  obtain ⟨hhr, -, hpinmap⟩ := step_frame hs
  have htinv := step_inv hinv hs
  refine ⟨step_trace hinv hs, fun k hlo hhi => ?_, fun k p hd hp hk => ?_, step_disposed hinv hs, fun hd => ?_⟩
  · rw [← hhr] at hlo
    exact ⟨pinLevel_unused hlo hhi, (unused_clear_iff _ _).mp htinv.addr.1 k hlo hhi⟩
  · rw [← hhr] at hk
    exact pinLevel_used (by rw [htinv.flags.held, hd]; rfl) hk (hpinmap ▸ hp)
  · have hreleased : t.linesHeld = false := by rw [htinv.flags.held, hd]; rfl
    refine ⟨State.shown_released hreleased, fun k => State.pinLevel_undriven ?_⟩
    rw [State.drivenLines_released hreleased, BitVec.getLsbD_zero]

end Sys2Proof.Display
end

section
/-! SUPPORT. Time and progress: the clock (R41), what a measured cycle has lasted (R130, R154), and where the engine is in its
half-row cycle, counted in transactions (R133) and in micro-steps (R135). -/

namespace Sys2Proof.Timing

open Sys2Proof.Machine Sys2Proof.Writers Sys2Proof.Lines Sys2Proof.Invariant

section
variable {k : Nat} {s t : State}

/-! ### The measured cycle -/

/-- The measured cycle's invariant, read in the phase that the engine is in. -/
theorem measureOk_at {p : Phase} (h : s.MeasureOk) (hp : s.phase = p) : { s with phase := p }.MeasureOk := by
  subst hp
  exact h

/-- No cycle is measured in the phases before its start and after its end (R117, R130). -/
theorem not_measuring (h : s.MeasureOk) (hp : s.phase = .idle ∨ s.phase = .s1 ∨ s.phase = .s15) :
    s.measActive = false := by
  by_contra hactive
  have hfalse := h (by simpa using hactive)
  rcases hp with hp | hp | hp <;> rw [hp] at hfalse <;> exact hfalse

/-- When a hold of plane `i` is over, the planes up to `i` have taken `B * (2^(i+1) - 1)` (R127, R134). -/
theorem hold_adds {tm b i t0 c : Nat} (hbefore : tm + b * (2 ^ i - 1) ≤ t0) (hover : t0 + b * 2 ^ i ≤ c) :
    tm + b * (2 ^ (i + 1) - 1) ≤ c := by
  have hpow : 1 ≤ 2 ^ i := Nat.one_le_two_pow
  have hsum : b * (2 ^ (i + 1) - 1) = b * (2 ^ i - 1) + b * 2 ^ i := by
    rw [← Nat.mul_add]
    congr 1
    rw [pow_succ]
    omega
  omega

theorem measureOk_of_engineEffect (h : s.MeasureOk) (he : EngineEffect s t) : t.MeasureOk := by
  have hclock := s.clockLast_le_value
  cases he with
  | idle => exact h
  | blank hp =>
    intro hactive
    show s.measureStart.tm0.toNat ≤ s.measureStart.clockLast.toNat
    rcases s.measureStart_cases with ⟨-, hm⟩ | ⟨-, hm⟩
    · rw [State.outWrite_measActive, hm, not_measuring h (.inr (.inl hp))] at hactive
      exact absurd hactive Bool.false_ne_true
    · rw [hm]
      exact le_rfl
  | addrSet _ hp => exact measureOk_at h hp
  | addrClr _ hp =>
    intro hactive
    have hbefore : s.tm0.toNat ≤ s.clockLast.toNat := measureOk_at h hp hactive
    show s.tm0.toNat + s.latB.toNat * (2 ^ 0 - 1) ≤ s.clockLast.toNat
    simpa using hbefore
  | color hp => exact measureOk_at h hp
  | clkHi hp => exact measureOk_at h hp
  | nextColumn hp => exact measureOk_at h hp
  | lastColumn hp => exact measureOk_at h hp
  | latchOn hp => exact measureOk_at h hp
  | latchOff hp => exact measureOk_at h hp
  | oeOff hp => exact measureOk_at h hp
  | holdStart hp =>
    intro hactive
    have hbefore : s.tm0.toNat + s.latB.toNat * (2 ^ s.curI.toNat - 1) ≤ s.clockLast.toNat := measureOk_at h hp hactive
    exact ⟨hbefore.trans hclock, le_rfl⟩
  | holdOn hp =>
    intro hactive
    have hbefore : s.tm0.toNat + s.latB.toNat * (2 ^ s.curI.toNat - 1) ≤ s.t0.toNat ∧ s.t0.toNat ≤ s.clockLast.toNat :=
      measureOk_at h hp hactive
    rw [State.clockTick_phase, hp]
    exact ⟨hbefore.1, hbefore.2.trans hclock⟩
  | nextPlane hp hover hi =>
    intro hactive
    have hbefore : s.tm0.toNat + s.latB.toNat * (2 ^ s.curI.toNat - 1) ≤ s.t0.toNat ∧ s.t0.toNat ≤ s.clockLast.toNat :=
      measureOk_at h hp hactive
    have hplane : (s.curI + 1#3).toNat = s.curI.toNat + 1 := by bv_omega
    show s.tm0.toNat + s.latB.toNat * (2 ^ (s.curI + 1#3).toNat - 1) ≤ s.clockValue.toNat
    rw [hplane]
    exact hold_adds hbefore.1 ((ScanEngine.holdOver_iff _).mp hover)
  | lastPlane hp hover hi =>
    intro hactive
    have hbefore : s.tm0.toNat + s.latB.toNat * (2 ^ s.curI.toNat - 1) ≤ s.t0.toNat ∧ s.t0.toNat ≤ s.clockLast.toNat :=
      measureOk_at h hp hactive
    have hplane : s.curI.toNat = 7 := by rw [hi]; rfl
    show s.tm0.toNat + 255 * s.latB.toNat ≤ s.clockValue.toNat
    have hall := hold_adds hbefore.1 ((ScanEngine.holdOver_iff _).mp hover)
    rw [hplane] at hall
    omega
  | advance hp => exact measureOk_at h hp
  | exchange hp =>
    have hdone := measureOk_at h hp
    exact hdone
  | noExchange hp =>
    have hdone := measureOk_at h hp
    exact hdone
  | measured hp =>
    intro hactive
    rcases s.measureEnd_cases with ⟨hm, heq⟩ | ⟨-, heq⟩
    · exact absurd hactive (by simp [heq, hm])
    · exact absurd hactive (by simp [heq])
  | again hp => exact fun hactive => absurd hactive (by simp [not_measuring h (.inr (.inr hp))])
  | parks hp => exact fun hactive => absurd hactive (by simp [not_measuring h (.inr (.inr hp))])

/-- A host agent touches neither the clock nor the measurement, and the engine that it may start measures nothing yet. -/
theorem measureOk_of_hostEffect (hf : s.FlagsOk) (h : s.MeasureOk) (hh : HostEffect k s t) : t.MeasureOk := by
  have hw := hostEffect_hostWrites hh
  have hactive : t.measActive = s.measActive := by rw [hw]
  have htm0 : t.tm0 = s.tm0 := by rw [hw]
  have hlast : t.clockLast = s.clockLast := by rw [hw]
  have hbase : t.latB = s.latB := by rw [hw]
  have ht0 : t.t0 = s.t0 := by rw [hw]
  rcases hostEffect_cursors hh with ⟨hp, -, hi, -⟩ | ⟨hparked, hp, -⟩
  · simpa only [State.MeasureOk, hactive, htm0, hlast, hbase, ht0, hp, hi] using h
  · intro hm
    rw [hactive, not_measuring h (.inl (hf.parkedIdle.mp hparked))] at hm
    exact absurd hm Bool.false_ne_true

/-! ### The clock -/

theorem step_clockLast (hs : step s = .next t) : s.clockLast.toNat ≤ t.clockLast.toNat := by
  rcases step_effect hs with ⟨-, he⟩ | ⟨k, -, hh⟩
  · exact engineEffect_clockLast (s := s.endTurn) he
  · rw [hostEffect_hostWrites hh]
    exact le_rfl

/-- After the listed draws a read is at least the free draw of its number (R41). -/
theorem clockDraw_le_clockValue (h : s.clockDraws = []) :
    (Config.clockDraw s.clockReads).toNat ≤ s.clockValue.toNat := by
  have hdraw : s.nextDraw = Config.clockDraw s.clockReads := by simp only [State.nextDraw, h]
  unfold State.clockValue
  split
  next hlt => rw [← hdraw]; omega
  · rw [hdraw]

theorem clockAfter_draws (s : State) (n : Nat) :
    (s.clockAfter n).clockDraws = s.clockDraws.drop n ∧ (s.clockAfter n).clockReads = s.clockReads + n := by
  induction n generalizing s with
  | zero => exact ⟨rfl, rfl⟩
  | succ n ih =>
    obtain ⟨hdraws, hreads⟩ := ih s.clockTick
    refine ⟨hdraws.trans ?_, hreads.trans ?_⟩
    · rw [State.clockTick_clockDraws, List.drop_tail]
    · rw [State.clockTick_clockReads]
      omega

/-- The clock reaches every count (R41). -/
theorem clockAfter_unbounded (s : State) (v : Word) : ∃ n, v.toNat ≤ (s.clockAfter n).clockValue.toNat := by
  obtain ⟨m, hm, hv⟩ := clockDraw_unbounded v (s.clockReads + s.clockDraws.length)
  refine ⟨m - s.clockReads, hv.trans ?_⟩
  obtain ⟨hdraws, hreads⟩ := clockAfter_draws s (m - s.clockReads)
  have hread : (s.clockAfter (m - s.clockReads)).clockReads = m := by omega
  have hempty : (s.clockAfter (m - s.clockReads)).clockDraws = [] := by
    rw [hdraws, List.drop_eq_nil_iff]
    omega
  simpa only [hread] using clockDraw_le_clockValue hempty

/-- A poll that reads the deadline or more ends its hold (R127). -/
theorem poll_ends (hp : s.phase = .s11)
    (hover : s.t0.toNat + s.latB.toNat * 2 ^ s.curI.toNat ≤ s.clockValue.toNat) :
    ∃ m t, engineRun m s = .next t ∧ t.phase ≠ .s11 := by
  refine ⟨1, s.clockTick.endHold, ScanEngine.engineRun_succ (ScanEngine.engineStep_s11_over hp hover) 0, ?_⟩
  unfold State.endHold
  split <;> simp

/-- A hold ends when the clock reaches its deadline (R41, R127), by induction on the number of reads until it does. -/
theorem hold_ends {n : Nat} (hp : s.phase = .s11)
    (hread : s.t0.toNat + s.latB.toNat * 2 ^ s.curI.toNat ≤ (s.clockAfter n).clockValue.toNat) :
    ∃ m t, engineRun m s = .next t ∧ t.phase ≠ .s11 := by
  induction n generalizing s with
  | zero => exact poll_ends hp hread
  | succ n ih =>
    by_cases hover : s.t0.toNat + s.latB.toNat * 2 ^ s.curI.toNat ≤ s.clockValue.toNat
    · exact poll_ends hp hover
    · obtain ⟨m, t, hrun, ht⟩ := ih (s := s.clockTick) hp hread
      have hheld := ScanEngine.engineStep_s11_held hp (Nat.not_le.mp hover)
      exact ⟨m + 1, t, (ScanEngine.engineRun_succ hheld m).trans hrun, ht⟩

/-! ### The place in the half-row cycle -/

/-- The next plane's number fits the three bits of its cursor. -/
theorem curI_succ_toNat (h : s.curI ≠ 7#3) : (s.curI + 1#3).toNat = s.curI.toNat + 1 := by bv_omega

/-- The last column of a plane (R122). -/
theorem last_column (hc : s.CursorsOk) (hm : s.moreColumns = false) : s.curC.toNat + 1 = s.width := by
  obtain ⟨-, hcol, -⟩ := hc
  simp only [State.moreColumns, decide_eq_false_iff_not] at hm
  omega

/-- The column cursor is 0 again while the plane is latched and held (R122). -/
theorem curC_zero (hc : s.CursorsOk) {p : Phase} (hp : s.phase = p) (hpast : p.pastColumns = true) : s.curC = 0#15 := by
  obtain ⟨-, -, hcol, -⟩ := hc
  exact hcol (hp ▸ hpast)

/-- Every micro-step but S15 advances the count of transactions by those it makes (R113, R133). -/
theorem engineEffect_cycleTx (hgeo : s.GeometryOk) (hc : s.CursorsOk) (he : EngineEffect s t) (h15 : s.phase ≠ .s15) :
    t.trace.length + s.cycleTx = s.trace.length + t.cycleTx := by
  cases he with
  | again hp => exact absurd hp h15
  | parks hp => exact absurd hp h15
  | idle hp => rfl
  | holdOn hp => simp [State.cycleTx, hp]
  | nextColumn hp hm =>
    simp [State.cycleTx, hp, (curC_succ_toNat hgeo hm).1]
    omega
  | lastColumn hp hm =>
    have hlast := last_column hc hm
    simp [State.cycleTx, hp]
    omega
  | nextPlane hp _ hi =>
    simp [State.cycleTx, hp, curI_succ_toNat hi, curC_zero hc hp rfl, Nat.add_mul]
    omega
  | lastPlane hp _ hi =>
    simp [State.cycleTx, hp, hi]
    omega
  | addrSet _ hp => simp [State.cycleTx, hp]
  | addrClr _ hp => simp [State.cycleTx, hp]
  | _ hp => simp [State.cycleTx, hp] <;> omega

/-- A micro-step reads the clock at most once (R55). -/
theorem engineEffect_clockReads (he : EngineEffect s t) : t.clockReads ≤ s.clockReads + 1 := by
  cases he with
  | blank => rcases s.measureStart_cases with ⟨-, hm⟩ | ⟨-, hm⟩ <;> simp [hm]
  | measured => rcases s.measureEnd_cases with ⟨-, hm⟩ | ⟨-, hm⟩ <;> simp [hm]
  | _ => simp

/-- A cycle has `24 * WIDTH + 47` micro-steps, so no phase of it stands beyond the last (R113). -/
theorem cyclePos_le (hc : s.CursorsOk) : s.cyclePos ≤ 24 * s.width + 46 := by
  obtain ⟨-, hcol, -⟩ := hc
  have hplane : s.curI.toNat * (3 * s.width + 5) ≤ 7 * (3 * s.width + 5) :=
    Nat.mul_le_mul_right _ (Nat.le_of_lt_succ s.curI.isLt)
  unfold State.cyclePos
  cases s.phase <;> simp only <;> omega

/-- What a turn of an engine that is told to stop does to its place in the cycle: from S15 it parks, a held poll keeps the
place, and every other micro-step moves it on by one (R113, R131). -/
theorem engineEffect_cyclePos (hgeo : s.GeometryOk) (hc : s.CursorsOk) (hr : s.running = false) (hidle : s.phase ≠ .idle)
    (he : EngineEffect s t) :
    (s.phase = .s15 ∧ t.phase = .idle) ∨
    (s.phase = .s11 ∧ t.phase = .s11 ∧ t.cyclePos = s.cyclePos) ∨
    (t.phase ≠ .idle ∧ ¬ (s.phase = .s11 ∧ t.phase = .s11) ∧ t.cyclePos = s.cyclePos + 1) := by
  cases he with
  | parks hp => exact .inl ⟨hp, rfl⟩
  | idle hp => exact absurd hp hidle
  | again hp hrun => simp [hr] at hrun
  | holdOn hp => exact .inr (.inl ⟨hp, hp, rfl⟩)
  | nextColumn hp hm =>
    refine .inr (.inr ⟨by simp, by simp, ?_⟩)
    simp [State.cyclePos, hp, (curC_succ_toNat hgeo hm).1]
    omega
  | lastColumn hp hm =>
    have hlast := last_column hc hm
    refine .inr (.inr ⟨by simp, by simp, ?_⟩)
    simp [State.cyclePos, hp]
    omega
  | nextPlane hp _ hi =>
    refine .inr (.inr ⟨by simp, by simp, ?_⟩)
    simp [State.cyclePos, hp, curI_succ_toNat hi, curC_zero hc hp rfl, Nat.add_mul]
    omega
  | lastPlane hp _ hi =>
    refine .inr (.inr ⟨by simp, by simp, ?_⟩)
    simp [State.cyclePos, hp, hi]
    omega
  | addrSet _ hp => exact .inr (.inr ⟨by simp, by simp, by simp [State.cyclePos, hp]⟩)
  | addrClr _ hp => exact .inr (.inr ⟨by simp, by simp, by simp [State.cyclePos, hp]⟩)
  | _ hp => exact .inr (.inr ⟨by simp, by simp [hp], by simp [State.cyclePos, hp]⟩)

/-! ### Runs of the engine -/

theorem engineStep_idle (hp : s.phase = .idle) : engineStep s = .next s := by simp only [engineStep, hp]

theorem engineRun_idle (n : Nat) (hp : s.phase = .idle) : engineRun n s = .next s ∧ heldPolls n s = 0 := by
  induction n with
  | zero => exact ⟨rfl, rfl⟩
  | succ n ih => simp [engineRun, heldPolls, engineStep_idle hp, hp, ih]

theorem heldPolls_succ {u : State} (h : engineStep s = .next u) (n : Nat) :
    heldPolls (n + 1) s = (if s.phase = .s11 ∧ u.phase = .s11 then 1 else 0) + heldPolls n u := by
  simp only [heldPolls, h]

theorem heldPolls_le (n : Nat) (s : State) : heldPolls n s ≤ n := by
  induction n generalizing s with
  | zero => exact le_rfl
  | succ n ih =>
    cases h : engineStep s with
    | next u =>
      have hu := ih u
      rw [heldPolls_succ h]
      split <;> omega
    | fault f => simp [heldPolls, h]
    | refused r => simp [heldPolls, h]

theorem engineRun_next (hinv : s.Inv) (n : Nat) : ∃ t, engineRun n s = .next t ∧ t.Inv := by
  induction n generalizing s with
  | zero => exact ⟨s, rfl, hinv⟩
  | succ n ih =>
    obtain ⟨u, hu⟩ := engineStep_next hinv.tables hinv.cursors
    obtain ⟨t, ht, htinv⟩ := ih (engineEffect_inv hinv (engineStep_effect hu))
    exact ⟨t, (ScanEngine.engineRun_succ hu n).trans ht, htinv⟩

theorem engineStep_running {u : State} (h : engineStep s = .next u) : u.running = s.running := by
  rw [engineEffect_engineWrites (engineStep_effect h)]

/-- An engine told to stop is parked once its turns, less the held polls, reach the end of the cycle (R135), by induction
on the turns. -/
theorem idle_iff (n : Nat) (hinv : s.Inv) (hr : s.running = false) (hidle : s.phase ≠ .idle)
    (hrun : engineRun n s = .next t) :
    t.phase = .idle ↔ 24 * s.width + 47 ≤ s.cyclePos + (n - heldPolls n s) := by
  induction n generalizing s with
  | zero =>
    have hpos := cyclePos_le hinv.cursors
    obtain rfl : s = t := by injection hrun
    simp only [hidle, false_iff]
    omega
  | succ n ih =>
    obtain ⟨u, hu⟩ := engineStep_next hinv.tables hinv.cursors
    have he := engineStep_effect hu
    have hwidth : u.width = s.width := Display.engineEffect_width he
    have hheld := heldPolls_le n u
    rw [ScanEngine.engineRun_succ hu] at hrun
    rw [heldPolls_succ hu]
    rcases engineEffect_cyclePos hinv.geometry hinv.cursors hr hidle he with ⟨h15, hpark⟩ | ⟨hp, hp', hpos⟩ |
      ⟨hidle', hmoves, hpos⟩
    · obtain ⟨hstays, hnone⟩ := engineRun_idle n hpark
      obtain rfl : u = t := by rw [hstays] at hrun; injection hrun
      have hpos : s.cyclePos = 24 * s.width + 46 := by simp [State.cyclePos, h15]
      have hnot : ¬ (s.phase = .s11 ∧ u.phase = .s11) := by simp [h15]
      rw [if_neg hnot, hnone, hpos]
      simp only [hpark, true_iff]
      omega
    · rw [ih (engineEffect_inv hinv he) (engineStep_running hu ▸ hr) (by simp [hp']) hrun, if_pos ⟨hp, hp'⟩, hwidth, hpos]
      omega
    · rw [ih (engineEffect_inv hinv he) (engineStep_running hu ▸ hr) hidle' hrun, if_neg hmoves, hwidth, hpos]
      omega

/-- With a latched base of 0 the first poll of a hold ends it, so no poll is held (R127). -/
theorem heldPolls_zero (n : Nat) (hinv : s.Inv) (hr : s.running = false) (h1 : s.phase ≠ .s1) (hb : s.latB = 0#32) :
    heldPolls n s = 0 := by
  induction n generalizing s with
  | zero => rfl
  | succ n ih =>
    obtain ⟨u, hu⟩ := engineStep_next hinv.tables hinv.cursors
    have he := engineStep_effect hu
    have hnext : u.phase ≠ .s1 ∧ u.latB = 0#32 ∧ ¬ (s.phase = .s11 ∧ u.phase = .s11) := by
      cases he with
      | blank hp => exact absurd hp h1
      | again _ hrun => simp [hr] at hrun
      | idle hp => exact ⟨h1, hb, by simp [hp]⟩
      | holdOn _ hon =>
        have hover : s.holdOver s.clockValue = true := by
          rw [ScanEngine.holdOver_iff, hb]
          simpa using hinv.clock.1.trans s.clockLast_le_value
        simp [hover] at hon
      | measured hp => exact ⟨by simp, by simpa using hb, by simp⟩
      | holdStart hp => exact ⟨by simp, hb, by simp [hp]⟩
      | _ => exact ⟨by simp, hb, by simp⟩
    obtain ⟨h1', hb', hmoves⟩ := hnext
    rw [heldPolls_succ hu, if_neg hmoves, ih (engineEffect_inv hinv he) (engineStep_running hu ▸ hr) h1' hb']

end

/-! ### The statements -/

/-- Settles O42: each hold that ends adds its length, and no other step turns the clock back. -/
theorem measuredCycleBound : Obligations.MeasuredCycleBound := by
  intro s t hinv h hs
  rcases step_effect hs with ⟨-, he⟩ | ⟨k, -, hh⟩
  · exact measureOk_of_engineEffect (s := s.endTurn) h he
  · exact measureOk_of_hostEffect (s := s.endTurn) (endTurn_inv hinv).flags h hh

/-- Settles O43: S14 reads the clock once more, and the bound of O42 is a bound of the difference. -/
theorem frameTimeLowerBound : Obligations.FrameTimeLowerBound := by
  intro s t hinv h hp hactive hs
  rw [ScanEngine.engineStep_s14 hp, ScanEngine.measureEnd_active hactive] at hs
  injection hs with hs
  subst hs
  have hbound : s.tm0.toNat + 255 * s.latB.toNat ≤ s.clockLast.toNat := measureOk_at h hp hactive
  have hclock := s.clockLast_le_value
  refine ⟨?_, rfl⟩
  show 255 * s.latB.toNat ≤ (s.clockValue - s.tm0).toNat
  rw [ScanEngine.frameTime_toNat hinv.clock]
  omega

/-- Settles O44: the clock's reads never fall and reach every count, so also a deadline below `2^64`. -/
theorem clockNeverDecreases : Obligations.ClockNeverDecreases := by
  refine fun s => ⟨s.clockLast_le_value, fun t => step_clockLast, clockAfter_unbounded s, fun hp hdeadline => ?_⟩
  obtain ⟨n, hn⟩ := clockAfter_unbounded s (BitVec.ofNat 64 (s.t0.toNat + s.latB.toNat * 2 ^ s.curI.toNat))
  rw [BitVec.toNat_ofNat, Nat.mod_eq_of_lt hdeadline] at hn
  exact hold_ends hp hn

/-- Settles O37: the place in the cycle counts the transactions, each micro-step making at most one. -/
theorem cycleTransactionCount : Obligations.CycleTransactionCount := by
  refine ⟨fun s t hinv hs h15 => ?_, fun s => ⟨fun hp => by simp [State.cycleTx, hp], fun hp => ?_⟩⟩
  · have he := engineStep_effect hs
    refine ⟨engineEffect_cycleTx hinv.geometry hinv.cursors he h15, ?_, engineEffect_clockReads he⟩
    rcases Display.engineEffect_trace he with ⟨ht, -⟩ | ⟨x, y, ht, -⟩ <;> simp [ht]
  · simp only [State.cycleTx, hp]
    omega

/-- Settles O45: the place in the cycle counts the turns that are not held polls, and the engine parks at its end. -/
theorem stoppingEngineParks : Obligations.StoppingEngineParks := by
  intro s hinv hr hidle
  refine ⟨fun n t hrun => ⟨idle_iff n hinv hr hidle hrun, ?_⟩, fun h1 hb => ?_⟩
  · obtain ⟨t', hrun', htinv⟩ := engineRun_next hinv n
    obtain rfl : t' = t := by rw [hrun'] at hrun; injection hrun
    exact htinv.flags.parkedIdle
  · obtain ⟨t, hrun, htinv⟩ := engineRun_next hinv (24 * s.width + 47 - s.cyclePos)
    have hpark : t.phase = .idle := by
      rw [idle_iff _ hinv hr hidle hrun, heldPolls_zero _ hinv hr h1 hb]
      omega
    exact ⟨t, hrun, hpark, htinv.flags.parkedIdle.mpr hpark⟩

end Sys2Proof.Timing
end

section
/-! SUPPORT. The transactions of S2 to S4 and S7 to S9 as the lines they leave (42_scan_engine.md). -/

namespace Sys2Proof.ScanEngine

open Sys2Proof.Machine Sys2Proof.Lines Sys2Proof.Invariant

/-! ### What two masks do to the lines -/

/-- Setting `m` and clearing the rest of a group puts `m` on the group (R49). -/
theorem applyLines_group (o m group : Lines) : applyLines o m (group &&& ~~~ m) = (o &&& ~~~ group) ||| m := by
  refine BitVec.eq_of_getLsbD_eq fun k hk => ?_
  rw [applyLines_getLsbD _ _ _ _ hk]
  simp only [BitVec.getLsbD_or, BitVec.getLsbD_and, BitVec.getLsbD_not, hk, decide_true, Bool.true_and]
  cases o.getLsbD k <;> cases m.getLsbD k <;> simp

section
variable {s : State}

/-- S2 and S3 leave `h` on the five address lines and every other line as it was: the lines that S3 does not clear are
unused and 0 (R35, R119). -/
theorem applyLines_address (hinv : s.Inv) :
    applyLines (applyLines s.out (rowAddrEntry s.curH.toNat) 0#14) 0#14
        (addrGroup s.hr &&& ~~~ rowAddrEntry s.curH.toNat) =
      (s.out &&& ~~~ maskAddr) ||| rowAddrEntry s.curH.toNat := by
  have h32 : s.curH.toNat < 32 := s.curH.isLt
  have hle := addrLines_le s.hr
  refine BitVec.eq_of_getLsbD_eq fun k hk => ?_
  rw [applyLines_getLsbD _ _ _ _ hk, applyLines_getLsbD _ _ _ _ hk]
  simp only [BitVec.getLsbD_or, BitVec.getLsbD_and, BitVec.getLsbD_not, BitVec.getLsbD_zero, hk, decide_true,
    Bool.true_and, Bool.not_false, Bool.and_true, Bool.or_false, maskAddr_getLsbD, addrGroup_getLsbD,
    rowAddrEntry_getLsbD h32]
  by_cases haddr : 6 ≤ k ∧ k < 11
  · obtain ⟨hlo, hhi⟩ := haddr
    by_cases hused : k < 6 + addrLines s.hr
    · cases s.curH.toNat.testBit (k - 6) <;> simp [hlo, hhi, hused]
    · have hbit := testBit_unused (hr_le hinv.geometry) hinv.cursors.1 (by omega : addrLines s.hr ≤ k - 6)
      have hclear := (unused_clear_iff _ _).mp hinv.addr.1 k (by omega) hhi
      simp [hlo, hhi, hused, hbit, hclear]
  · have hgroup : ¬ (6 ≤ k ∧ k < 6 + addrLines s.hr) := by omega
    simp [haddr, hgroup]

theorem engineStep_s2 (h : s.phase = .s2) (htab : s.TablesOk) (hh : s.curH.toNat < s.hr) :
    engineStep s = .next ({ s with phase := .s3 }.outWrite (rowAddrEntry s.curH.toNat) 0#14) := by
  simp only [engineStep, h, scanS2, rowaddr_getElem? htab hh]

theorem engineStep_s3 (h : s.phase = .s3) (htab : s.TablesOk) (hh : s.curH.toNat < s.hr) :
    engineStep s = .next ({ s with phase := .s4, curI := 0#3, curC := 0#15 }.outWrite 0#14
      (addrGroup s.hr &&& ~~~ rowAddrEntry s.curH.toNat)) := by
  simp only [engineStep, h, scanS3, rowaddr_getElem? htab hh]

theorem engineStep_s4 (h : s.phase = .s4) (hc : s.CursorsOk) :
    engineStep s = .next ({ s with phase := .s5 }.outWrite s.scanMask (maskColor &&& ~~~ s.scanMask)) := by
  simp only [engineStep, h, scanS4, if_pos (scanOffset_lt hc)]

theorem engineStep_s7 (h : s.phase = .s7) :
    engineStep s = .next ({ s with phase := .s8 }.outWrite (maskOe ||| maskLat) 0#14) := by
  simp only [engineStep, h, scanS7]

theorem engineStep_s8 (h : s.phase = .s8) : engineStep s = .next ({ s with phase := .s9 }.outWrite 0#14 maskLat) := by
  simp only [engineStep, h, scanS8]

theorem engineStep_s9 (h : s.phase = .s9) : engineStep s = .next ({ s with phase := .s10 }.outWrite 0#14 maskOe) := by
  simp only [engineStep, h, scanS9]

theorem outWrite_clear (s : State) (y : Lines) :
    s.outWrite 0#14 y = { s with out := s.out &&& ~~~ y, trace := ⟨0#14, y, s.out⟩ :: s.trace } := by
  rw [State.outWrite, applyLines_clear]

end

/-- Settles O29: two transactions that set the lines of `h` and clear the other used ones. -/
theorem addressSteps : Obligations.AddressSteps := by
  intro s hinv hp
  have hh := hinv.cursors.1
  have hs3 := engineStep_s3 (s := { s with phase := .s3 }.outWrite (rowAddrEntry s.curH.toNat) 0#14) rfl hinv.tables hh
  show engineRun 2 s = _
  rw [engineRun_succ (engineStep_s2 hp hinv.tables hh), engineRun_succ hs3]
  have hout := applyLines_address hinv
  have hmiddle : applyLines s.out (rowAddrEntry s.curH.toNat) 0#14 = s.out ||| rowAddrEntry s.curH.toNat :=
    applyLines_assert _ _
  show Host.Outcome.next { s with
      phase := .s4, curI := 0#3, curC := 0#15
      out := applyLines (applyLines s.out (rowAddrEntry s.curH.toNat) 0#14) 0#14
        (addrGroup s.hr &&& ~~~ rowAddrEntry s.curH.toNat)
      trace := ⟨0#14, addrGroup s.hr &&& ~~~ rowAddrEntry s.curH.toNat,
        applyLines s.out (rowAddrEntry s.curH.toNat) 0#14⟩ :: ⟨rowAddrEntry s.curH.toNat, 0#14, s.out⟩ :: s.trace } = _
  rw [hout, hmiddle]
  rfl

/-- Settles O30: the mask is the byte's low six bits, so the colour lines become those and no other line moves. -/
theorem colorStep : Obligations.ColorStep := by
  intro s hinv hp
  show engineStep s = _
  rw [engineStep_s4 hp hinv.cursors, State.outWrite, applyLines_group, scanMask_eq hinv.tables]
  rfl

/-- Settles O32: each of the three transactions only asserts or only clears, and only `OE` and `LAT`. -/
theorem latchSteps : Obligations.LatchSteps := by
  intro s
  refine ⟨fun hp => ?_, fun hp => ?_, fun hp => ?_, fun t hp hs => ?_⟩
  · rw [engineStep_s7 hp, outWrite_assert]
    rfl
  · rw [engineStep_s8 hp, outWrite_clear]
    rfl
  · rw [engineStep_s9 hp, outWrite_clear]
    rfl
  · have hlines : ∀ x y : Lines, x &&& 0x0FFF#14 = 0#14 → y &&& 0x0FFF#14 = 0#14 →
        applyLines s.out x y &&& 0x0FFF#14 = s.out &&& 0x0FFF#14 := by
      intro x y hx hy
      refine BitVec.eq_of_getLsbD_eq fun k hk => ?_
      have hxk : (x.getLsbD k && (0x0FFF#14).getLsbD k) = false := by
        simpa using congrArg (fun z : Lines => z.getLsbD k) hx
      have hyk : (y.getLsbD k && (0x0FFF#14).getLsbD k) = false := by
        simpa using congrArg (fun z : Lines => z.getLsbD k) hy
      rw [BitVec.getLsbD_and, BitVec.getLsbD_and, applyLines_getLsbD _ _ _ _ hk]
      cases hm : (0x0FFF#14).getLsbD k <;> simp_all
    rcases hp with hp | hp | hp
    · rw [engineStep_s7 hp] at hs
      injection hs with hs
      exact hs ▸ hlines _ _ (by decide) (by decide)
    · rw [engineStep_s8 hp] at hs
      injection hs with hs
      exact hs ▸ hlines _ _ (by decide) (by decide)
    · rw [engineStep_s9 hp] at hs
      injection hs with hs
      exact hs ▸ hlines _ _ (by decide) (by decide)

end Sys2Proof.ScanEngine
end

section
/-! SUPPORT. The pixel encoder of 40_pixel_encoder.md, proved: what DECODE reads off the lanes of a pixel's eight bytes, that
every lane has one pixel, so that drawings of different pixels do not meet, and what SETPIXEL and FILL leave to decode. -/

namespace Sys2Proof.PixelEncoder

open Sys2Proof.Machine

/-! ### Decoding -/

/-- The bits that the planes of one lane put into a channel, for any number of planes (R97). -/
theorem foldl_planes_getLsbD (m : Memory) (base lane n j : Nat) (hj : j < 8) :
    ((List.range n).foldl (fun acc i => acc ||| (((Memory.read m (base + i) >>> lane) &&& 1#8) <<< i)) 0#8).getLsbD j =
      (decide (j < n) && (m.read (base + j)).getLsbD lane) := by
  induction n with
  | zero => simp
  | succ n ih =>
    have hone : ∀ i, (1#8).getLsbD i = decide (i = 0) := by
      intro i
      by_cases h0 : i = 0 <;> simp [h0]
    rw [List.range_succ, List.foldl_append, List.foldl_cons, List.foldl_nil, BitVec.getLsbD_or, ih,
      BitVec.getLsbD_shiftLeft, BitVec.getLsbD_and, BitVec.getLsbD_ushiftRight, hone]
    rcases Nat.lt_trichotomy j n with hlt | rfl | hgt
    · simp [hlt, Nat.lt_succ_of_lt hlt]
    · simp [hj]
    · simp [Nat.not_lt_of_gt hgt, Nat.sub_ne_zero_of_lt hgt, show ¬ j < n + 1 by omega]

/-- Bit `i` of a decoded channel is its lane of plane `i` (R97). -/
theorem decodeLane_getLsbD (m : Memory) (base lane : Nat) {i : Nat} (hi : i < 8) :
    (decodeLane m base lane).getLsbD i = (m.read (base + i)).getLsbD lane := by
  rw [decodeLane, foldl_planes_getLsbD m base lane 8 i hi, decide_eq_true hi, Bool.true_and]

theorem groupLane_eq (s : State) (row : Int) : s.groupLane row = if s.isUpper row then 0 else 3 := by
  simp [State.groupLane, State.isUpper]

/-- Each channel of a pixel is one lane of its row group (R97). -/
theorem dec_getLsbD (s : State) (p : Bool) (col row : Int) {i : Nat} (hi : i < 8) :
    (s.dec p col row).r.getLsbD i = (s.readByte p (s.pixelOffset col row i)).getLsbD (s.groupLane row) ∧
    (s.dec p col row).g.getLsbD i = (s.readByte p (s.pixelOffset col row i)).getLsbD (s.groupLane row + 1) ∧
    (s.dec p col row).b.getLsbD i = (s.readByte p (s.pixelOffset col row i)).getLsbD (s.groupLane row + 2) := by
  rw [groupLane_eq]
  exact ⟨decodeLane_getLsbD _ _ _ hi, decodeLane_getLsbD _ _ _ hi, decodeLane_getLsbD _ _ _ hi⟩

/-- Two triples with the same bits are the same. -/
theorem rgb_ext {x y : Rgb} (h : ∀ i, i < 8 →
    x.r.getLsbD i = y.r.getLsbD i ∧ x.g.getLsbD i = y.g.getLsbD i ∧ x.b.getLsbD i = y.b.getLsbD i) : x = y := by
  obtain ⟨xr, xg, xb⟩ := x
  obtain ⟨yr, yg, yb⟩ := y
  have hr : xr = yr := BitVec.eq_of_getLsbD_eq fun i hi => (h i hi).1
  have hg : xg = yg := BitVec.eq_of_getLsbD_eq fun i hi => (h i hi).2.1
  have hb : xb = yb := BitVec.eq_of_getLsbD_eq fun i hi => (h i hi).2.2
  rw [hr, hg, hb]

/-- The response of `DECODE` has red, green and blue in its bytes 2, 1 and 0 and nothing above (R82, R98). -/
theorem word_fields (x : Rgb) :
    x.word.extractLsb' 16 8 = x.r ∧ x.word.extractLsb' 8 8 = x.g ∧ x.word.extractLsb' 0 8 = x.b ∧
      x.word.extractLsb' 24 40 = 0#40 := by
  refine ⟨?_, ?_, ?_, ?_⟩ <;> ext k hk <;> interval_cases k <;> simp [Rgb.word, placeField]

/-- `DECODE` in bounds answers the pixel of the named role's buffer (R98). -/
theorem exec_decode {s : State} (ht : s.tornDown = false) {col row : Int} (hin : s.inBounds col row = true)
    (sel : Role) : exec (.decode sel col row) s = .next (s.complete s.issuer (s.dec (s.roleBuf sel) col row).word) := by
  have hcheck : exec (.decode sel col row) s = .next _ := State.unlessTornDown_pass ht
  rw [hcheck, if_pos hin]

/-- `READBYTE` below `S` answers the byte (R100). -/
theorem exec_readbyte {s : State} (ht : s.tornDown = false) (sel : Role) {off : U32} (hoff : off.toNat < s.size) :
    exec (.readbyte sel off) s =
      .next (s.complete s.issuer ((s.readByte (s.roleBuf sel) off.toNat).setWidth 64)) := by
  have hcheck : exec (.readbyte sel off) s = .next _ := State.unlessTornDown_pass ht
  rw [hcheck, if_pos hoff]

theorem not_inBounds_iff (s : State) (col row : Int) :
    s.inBounds col row = false ↔ col < 0 ∨ (s.width : Int) ≤ col ∨ row < 0 ∨ (s.rows : Int) ≤ row := by
  rw [← Bool.not_eq_true, inBounds_iff]
  omega

theorem exec_decode_outside {s : State} (ht : s.tornDown = false) {col row : Int} (hin : s.inBounds col row = false)
    (sel : Role) : exec (.decode sel col row) s = .next (s.raiseFault s.issuer .badOperand) := by
  have hcheck : exec (.decode sel col row) s = .next _ := State.unlessTornDown_pass ht
  rw [hcheck, hin]
  rfl

theorem exec_readbyte_outside {s : State} (ht : s.tornDown = false) (sel : Role) {off : U32} (hoff : s.size ≤ off.toNat) :
    exec (.readbyte sel off) s = .next (s.raiseFault s.issuer .badOperand) := by
  have hcheck : exec (.readbyte sel off) s = .next _ := State.unlessTornDown_pass ht
  rw [hcheck, if_neg (Nat.not_lt.mpr hoff)]

/-! ### Every lane has one pixel -/

theorem rows_eq {s : State} (h : s.GeometryOk) : s.rows = 2 * s.hr := by
  simp only [State.GeometryOk, geometryOk, Bool.and_eq_true, decide_eq_true_eq] at h
  simp only [State.hr, halfRows]
  omega

/-- Two in-bounds rows with one half-row and one row group are the same row (R52). -/
theorem row_eq {s : State} (hgeo : s.GeometryOk) {row row' : Int} (h0 : 0 ≤ row ∧ row < s.rows)
    (h0' : 0 ≤ row' ∧ row' < s.rows) (hhalf : s.halfOf row = s.halfOf row') (hupper : s.isUpper row = s.isUpper row') :
    row = row' := by
  have hrows := rows_eq hgeo
  have hmod : ∀ r : Int, 0 ≤ r ∧ r < s.rows → (s.halfOf r : Int) = if s.isUpper r then r else r - s.hr := by
    intro r hr
    unfold State.halfOf
    split
    next hup =>
      rw [isUpper_iff] at hup
      rw [Nat.mod_eq_of_lt (by omega)]
      omega
    next hup =>
      rw [isUpper_iff] at hup
      rw [Nat.mod_eq_sub_mod (by omega), Nat.mod_eq_of_lt (by omega)]
      omega
  have h1 := hmod row h0
  have h2 := hmod row' h0'
  rw [hhalf, hupper] at h1
  split at h1 <;> simp_all

/-- No bit of the buffer is written by two different pixels (R51, R52). -/
theorem writesBit_unique {s : State} (hgeo : s.GeometryOk) {off k : Nat} {p q : Int × Int}
    (hp : writesBit s off k p = true) (hq : writesBit s off k q = true) : p = q := by
  obtain ⟨hpin, hppix, hplane⟩ := (writesBit_iff s off k p).mp hp
  obtain ⟨hqin, hqpix, hqlane⟩ := (writesBit_iff s off k q).mp hq
  rw [inBounds_iff] at hpin hqin
  rw [inPixel_iff] at hppix hqpix
  have hbase : s.pixelBase p.1 p.2 = s.pixelBase q.1 q.2 := by
    rw [pixelBase_eq] at hppix hqpix ⊢
    rw [pixelBase_eq]
    omega
  have hinv := Lines.inverse_offset (h := s.halfOf p.2) (i := 0) (by omega : p.1.toNat < s.width) (by decide)
  have hinv' := Lines.inverse_offset (h := s.halfOf q.2) (i := 0) (by omega : q.1.toNat < s.width) (by decide)
  have hoffsets : offset s.width p.1.toNat (s.halfOf p.2) 0 = offset s.width q.1.toNat (s.halfOf q.2) 0 := hbase
  rw [hoffsets] at hinv
  have hcol : p.1.toNat = q.1.toNat := hinv.1.symm.trans hinv'.1
  have hhalf : s.halfOf p.2 = s.halfOf q.2 := hinv.2.1.symm.trans hinv'.2.1
  have hupper : s.isUpper p.2 = s.isUpper q.2 := by
    rw [hplane] at hqlane
    cases hu : s.isUpper p.2 <;> cases hv : s.isUpper q.2 <;> simp_all
  exact Prod.ext (by omega) (row_eq hgeo (by omega) (by omega) hhalf hupper)

/-- The lanes that `DECODE` reads of a pixel are those that its `SETPIXEL` writes (R90, R97). -/
theorem writesBit_of_lane {s : State} {col row : Int} (hin : s.inBounds col row = true) {i c : Nat} (hi : i < 8)
    (hc : c < 3) : writesBit s (s.pixelOffset col row i) (s.groupLane row + c) (col, row) = true := by
  rw [writesBit_iff, inPixel_iff, groupLane_eq, State.pixelOffset]
  refine ⟨hin, ⟨Nat.le_add_right _ _, Nat.add_lt_add_left hi _⟩, ?_⟩
  show _ = if s.isUpper row then _ else _
  split <;> simp <;> omega

/-! ### What is drawn -/

theorem pat_getLsbD (i : Nat) (gr gg gb : Byte) :
    (pat i gr gg gb).getLsbD 0 = gr.getLsbD i ∧ (pat i gr gg gb).getLsbD 1 = gg.getLsbD i
      ∧ (pat i gr gg gb).getLsbD 2 = gb.getLsbD i := by
  cases hr : gr.getLsbD i <;> cases hg : gg.getLsbD i <;> cases hb : gb.getLsbD i <;> simp [pat, hr, hg, hb]

/-- In the byte of plane `i` of a pixel a drawing's three lanes are bit `i` of the three channels (R90). -/
theorem drawnBit_plane (s : State) (r g b : Byte) (col row : Int) {i : Nat} (hi : i < 8) :
    drawnBit s r g b (s.pixelOffset col row i) (s.groupLane row) = (s.gammaOf r).getLsbD i ∧
    drawnBit s r g b (s.pixelOffset col row i) (s.groupLane row + 1) = (s.gammaOf g).getLsbD i ∧
    drawnBit s r g b (s.pixelOffset col row i) (s.groupLane row + 2) = (s.gammaOf b).getLsbD i := by
  have hplane : s.pixelOffset col row i % 8 = i := by
    rw [State.pixelOffset, pixelBase_eq]
    omega
  have hgroup : s.groupLane row % 3 = 0 := by rw [groupLane_eq]; split <;> rfl
  have hgroup1 : (s.groupLane row + 1) % 3 = 1 := by omega
  have hgroup2 : (s.groupLane row + 2) % 3 = 2 := by omega
  simp only [drawnBit, hplane, hgroup, hgroup1, hgroup2]
  exact pat_getLsbD i _ _ _

/-- A pixel whose lanes are drawn decodes to the gamma-corrected triple (R99). -/
theorem decodePixel_drawn {s : State} {m : Memory} (r g b : Byte) (col row : Int)
    (h : ∀ i c, i < 8 → c < 3 → (m.read (s.pixelOffset col row i)).getLsbD (s.groupLane row + c) =
      drawnBit s r g b (s.pixelOffset col row i) (s.groupLane row + c)) :
    decodePixel m (s.pixelBase col row) (s.isUpper row) = s.gammaRgb r g b := by
  refine rgb_ext fun i hi => ?_
  obtain ⟨hr, hg, hb⟩ := drawnBit_plane s r g b col row hi
  have hlane := h i
  rw [groupLane_eq] at hlane hr hg hb
  refine ⟨?_, ?_, ?_⟩
  · exact (decodeLane_getLsbD _ _ _ hi).trans ((hlane 0 hi (by decide)).trans hr)
  · exact (decodeLane_getLsbD _ _ _ hi).trans ((hlane 1 hi (by decide)).trans hg)
  · exact (decodeLane_getLsbD _ _ _ hi).trans ((hlane 2 hi (by decide)).trans hb)

/-- Two buffers with the same bits in a pixel's lanes decode it alike (R97). -/
theorem decodePixel_congr {s : State} {m n : Memory} (col row : Int)
    (h : ∀ i c, i < 8 → c < 3 → (m.read (s.pixelOffset col row i)).getLsbD (s.groupLane row + c) =
      (n.read (s.pixelOffset col row i)).getLsbD (s.groupLane row + c)) :
    decodePixel m (s.pixelBase col row) (s.isUpper row) = decodePixel n (s.pixelBase col row) (s.isUpper row) := by
  rw [groupLane_eq] at h
  refine rgb_ext fun i hi => ⟨?_, ?_, ?_⟩
  · exact (decodeLane_getLsbD _ _ _ hi).trans ((h i 0 hi (by decide)).trans (decodeLane_getLsbD _ _ _ hi).symm)
  · exact (decodeLane_getLsbD _ _ _ hi).trans ((h i 1 hi (by decide)).trans (decodeLane_getLsbD _ _ _ hi).symm)
  · exact (decodeLane_getLsbD _ _ _ hi).trans ((h i 2 hi (by decide)).trans (decodeLane_getLsbD _ _ _ hi).symm)

/-- `DECODE back` right after a drawing decodes what was drawn. -/
theorem exec_decode_drawn {s : State} (ht : s.tornDown = false) (m : Memory) {col row : Int}
    (hin : s.inBounds col row = true) :
    exec (.decode .back col row) (drawn s m) =
      .next ((drawn s m).complete (drawn s m).issuer (decodePixel m (s.pixelBase col row) (s.isUpper row)).word) := by
  have hdecode := exec_decode (s := drawn s m) ht (col := col) (row := row) hin .back
  have hbuf : (drawn s m).buf ((drawn s m).roleBuf .back) = m := drawn_buf_back s m
  rw [State.dec, hbuf] at hdecode
  exact hdecode

/-- Two `SETPIXEL`s of different pixels leave the same buffer in either order (R101(d)). -/
theorem paint_comm {s : State} (hgeo : s.GeometryOk) (r g b r' g' b' : Byte) {m : Memory} (hm : m.wf = true)
    {p q : Int × Int} (hne : p ≠ q) :
    paint s r' g' b' (paint s r g b m p) q = paint s r g b (paint s r' g' b' m q) p := by
  have hp := paint_wf s r g b hm p
  have hq := paint_wf s r' g' b' hm q
  refine Memory.ext_read (paint_wf _ _ _ _ hp _) (paint_wf _ _ _ _ hq _) fun off => ?_
  refine BitVec.eq_of_getLsbD_eq fun k _ => ?_
  rw [paint_getLsbD _ _ _ _ hp, paint_getLsbD _ _ _ _ hm, paint_getLsbD _ _ _ _ hq, paint_getLsbD _ _ _ _ hm]
  by_cases hwp : writesBit s off k p = true
  · have hwq : ¬ writesBit s off k q = true := fun hwq => hne (writesBit_unique hgeo hwp hwq)
    simp [hwp, hwq]
  · simp [hwp]

/-! ### The statements -/

/-- Settles O20: the channels are the lanes, and the response has one byte for each. -/
theorem decodeAnswersPixel : Obligations.DecodeAnswersPixel := by
  intro s sel col row ht hin
  obtain ⟨hr, hg, hb, htop⟩ := word_fields (s.dec (s.roleBuf sel) col row)
  exact ⟨_, exec_decode ht hin sel, hr, hg, hb, htop, fun i hi => dec_getLsbD s _ col row hi⟩

/-- Settles O21: the operand is tested after the lifecycle check, and the failed test only records the fault. -/
theorem badOperandsRecorded : Obligations.BadOperandsRecorded :=
  ⟨rfl, fun s ht => ⟨fun sel col row hout => exec_decode_outside ht ((not_inBounds_iff s col row).mpr hout) sel,
    fun sel _ hoff => exec_readbyte_outside ht sel hoff⟩⟩

/-- Settles O22: the byte as it is stored, whose two top bits the invariant keeps 0 (R22). -/
theorem readbyteAnswersByte : Obligations.ReadbyteAnswersByte := by
  refine fun s sel off ht hoff => ⟨exec_readbyte ht sel hoff, fun hinv => ?_⟩
  obtain ⟨-, -, hbits⟩ := Invariant.bufferOk_buf hinv.buffers (s.roleBuf sel)
  have hbit : ∀ k, (0xC0#8).getLsbD k = true → ((s.buf (s.roleBuf sel)).read off.toNat).getLsbD k = false := by
    intro k hk
    have hzero := congrArg (fun v : Byte => v.getLsbD k) (hbits off.toNat)
    simpa only [BitVec.getLsbD_and, hk, Bool.and_true, BitVec.getLsbD_zero] using hzero
  exact ⟨hbit 6 rfl, hbit 7 rfl⟩

/-- Settles O13: the eight bytes of the pixel are written by `put`, which touches the lanes of one row group. -/
theorem setpixelWritesItsLanes : Obligations.SetpixelWritesItsLanes := by
  intro s col row r g b ht hwf hin
  refine ⟨paint s r g b (s.buf s.back) (col, row), exec_setpixel ht col row r g b, paint_wf s r g b hwf _, ?_, ?_⟩
  · intro i hi
    have hbit := paint_getLsbD s r g b hwf (col, row) (s.pixelOffset col row i)
    have hdrawn : ∀ c, c < 3 → ((paint s r g b (s.buf s.back) (col, row)).read (s.pixelOffset col row i)).getLsbD
        (s.groupLane row + c) = drawnBit s r g b (s.pixelOffset col row i) (s.groupLane row + c) :=
      fun c hc => (hbit _).trans (if_pos (writesBit_of_lane hin hi hc))
    obtain ⟨hr, hg, hb⟩ := drawnBit_plane s r g b col row hi
    refine ⟨(hdrawn 0 (by decide)).trans hr, (hdrawn 1 (by decide)).trans hg, (hdrawn 2 (by decide)).trans hb, ?_⟩
    intro k hk
    refine (hbit k).trans (if_neg fun hw => ?_)
    obtain ⟨-, -, hlane⟩ := (writesBit_iff _ _ _ _).mp hw
    rw [groupLane_eq] at hk
    split at hlane <;> split at hk <;> simp_all <;> omega
  · intro off hout
    refine BitVec.eq_of_getLsbD_eq fun k _ => ?_
    rw [paint_getLsbD s r g b hwf, if_neg]
    · rfl
    · simp [writesBit, hout]

/-- Settles O15: the lanes of the pixel hold the triple, and no other pixel has one of them. -/
theorem setpixelThenDecode : Obligations.SetpixelThenDecode := by
  intro s col row r g b hinv ht hin
  have hwf := wf_buf hinv.buffers s.back
  refine ⟨_, exec_setpixel ht col row r g b, ?_, fun col' row' hin' hne => ?_, fun col' row' => ?_⟩
  · rw [exec_decode_drawn ht _ hin, decodePixel_drawn r g b col row fun i c hi hc => ?_]
    rw [paint_getLsbD s r g b hwf, if_pos (writesBit_of_lane hin hi hc)]
  · have hback : (drawn s (paint s r g b (s.buf s.back) (col, row))).buf s.back = _ := drawn_buf_back s _
    show decodePixel (State.buf _ s.back) (s.pixelBase col' row') (s.isUpper row') = _
    rw [hback]
    refine decodePixel_congr col' row' fun i c hi hc => ?_
    have hother : ¬ writesBit s (s.pixelOffset col' row' i) (s.groupLane row' + c) (col, row) = true :=
      fun hw => hne (writesBit_unique hinv.geometry (writesBit_of_lane hin' hi hc) hw)
    rw [paint_getLsbD s r g b hwf, if_neg hother]
  · show decodePixel (State.buf (s.setBuf s.back _) s.front) (s.pixelBase col' row') (s.isUpper row') = _
    rw [s.buf_front_setBuf_back]
    rfl

/-- Settles O16: torn down, both orders record the same fault twice; else the two drawings share no bit. -/
theorem setpixelsCommute : Obligations.SetpixelsCommute := by
  intro s col row col' row' r g b r' g' b' hinv hne
  by_cases ht : s.tornDown = true
  · have hfault : ∀ (c d : Int) (x y z : Byte) (u : State), u.tornDown = true →
        exec (.setpixel c d x y z) u = .next (u.raiseFault u.issuer .useAfterDispose) :=
      fun _ _ _ _ _ _ hu => State.unlessTornDown_stop hu
    have htorn : (s.raiseFault s.issuer .useAfterDispose).tornDown = true := ht
    simp only [execAll, hfault _ _ _ _ _ s ht, hfault _ _ _ _ _ _ htorn]
  · have ht : s.tornDown = false := by simpa using ht
    have htwo : ∀ m, (drawn s m).tornDown = false := fun m => by rwa [drawn_tornDown]
    simp only [execAll, exec_setpixel ht, exec_setpixel (htwo _), drawn_buf_back, paint_drawn, drawn_drawn]
    rw [paint_comm hinv.geometry r g b r' g' b' (wf_buf hinv.buffers _) hne]

/-- Settles O17: every byte of `[0, S)` is written by `fillByte`, which keeps its two top bits. -/
theorem fillWritesEveryLane : Obligations.FillWritesEveryLane := by
  intro s r g b ht hwf
  have hbit := fillMemory_getLsbD s r g b hwf
  obtain ⟨hwf', hread⟩ := fillMemory_spec (s.buf s.back) hwf s.size (s.gammaOf r) (s.gammaOf g) (s.gammaOf b)
  refine ⟨_, exec_fill ht r g b, hwf', fun off hoff lane hlane => ?_, fun off k hk => ?_, fun off hoff => ?_⟩
  · obtain ⟨hr, hg, hb⟩ := pat_getLsbD (off % 8) (s.gammaOf r) (s.gammaOf g) (s.gammaOf b)
    rcases hlane with rfl | rfl
    · exact ⟨((hbit off 0).trans (if_pos ⟨hoff, by decide⟩)).trans hr,
        ((hbit off 1).trans (if_pos ⟨hoff, by decide⟩)).trans hg,
        ((hbit off 2).trans (if_pos ⟨hoff, by decide⟩)).trans hb⟩
    · exact ⟨((hbit off 3).trans (if_pos ⟨hoff, by decide⟩)).trans hr,
        ((hbit off 4).trans (if_pos ⟨hoff, by decide⟩)).trans hg,
        ((hbit off 5).trans (if_pos ⟨hoff, by decide⟩)).trans hb⟩
  · exact (hbit off k).trans (if_neg (by omega))
  · exact (hread off).trans (if_neg (by omega))

/-- Settles O19: every pixel's lanes are among those that `FILL` writes. -/
theorem fillIsUniform : Obligations.FillIsUniform := by
  intro s r g b hinv ht
  refine ⟨_, exec_fill ht r g b, fun col row hin => ?_⟩
  rw [exec_decode_drawn ht _ hin, decodePixel_drawn r g b col row fun i c hi hc => ?_]
  have hlane := lane_of_writesBit (hr_pos hinv.geometry) (writesBit_of_lane hin hi hc)
  rw [fillMemory_getLsbD s r g b (wf_buf hinv.buffers _), if_pos hlane]

end Sys2Proof.PixelEncoder
end

section
/-! SUPPORT. The swap coordinator of 41_swap.md: the steps of REQSWAP, and that the roles of the buffers change nowhere but
in S13. -/

namespace Sys2Proof.Swap

open Sys2Proof.Machine Sys2Proof.Writers Sys2Proof.Invariant Sys2Proof.PixelEncoder

/-- Settles O23: one step of the issue, and the two later steps, each with its hold (R104, R107). -/
theorem reqswapSteps : Obligations.ReqswapSteps := by
  refine ⟨fun s ht => State.unlessTornDown_pass ht, fun s k a ha => ?_⟩
  rw [hostStep_eq ha]
  refine ⟨fun hp hs => ?_, fun hp hs => ?_, fun hp hg => ?_, fun hp hg => ?_⟩ <;> simp only [hostAgentStep, hp]
  · exact swapPostStep_held hs
  · simp [swapPostStep, hs, State.modifyHost]
  · rw [← hg]
    exact swapWaitStep_held
  · simp only [swapWaitStep, if_neg hg]

/-- Settles O25: no host agent writes the roles or the count, and of the engine's effects only the exchange does. -/
theorem frontChangesOnlyAtFrameBoundary : Obligations.FrontChangesOnlyAtFrameBoundary := by
  intro s t hs hne
  rcases step_effect hs with ⟨ha, he⟩ | ⟨k, -, hh⟩
  · rcases engineEffect_swap he with ⟨hfront, hgen, -⟩ | ⟨hp, hh, hpending, rfl⟩
    · exact absurd hne (not_or.mpr ⟨not_not.mpr hfront, not_not.mpr hgen⟩)
    · exact ⟨ha, hp, hh, hpending, rfl, rfl, rfl, rfl, rfl⟩
  · have hw := hostEffect_hostWrites hh
    have hfront : t.front = s.front := by rw [hw]; rfl
    have hgen : t.swapGen = s.swapGen := by rw [hw]; rfl
    exact absurd hne (not_or.mpr ⟨not_not.mpr hfront, not_not.mpr hgen⟩)

/-- The state after the exchange of S13 (R108, R129). -/
def exchanged (s : State) : State := { s.swapExchange with phase := .s14 }

@[simp] theorem exchanged_roleBuf_front (s : State) : (exchanged s).roleBuf .front = s.back := rfl
@[simp] theorem exchanged_roleBuf_back (s : State) : (exchanged s).roleBuf .back = s.front := Bool.not_not _

/-- Every physical buffer decodes as before, since no byte is copied (R108). -/
@[simp] theorem exchanged_dec (s : State) : (exchanged s).dec = s.dec := rfl

/-- Settles O26: the exchange gives each role the other's buffer and copies no byte (R108, R110). -/
theorem exchangeShowsBackBuffer : Obligations.ExchangeShowsBackBuffer := by
  intro s ht hp hh hs
  refine ⟨exchanged s, ScanEngine.engineStep_s13_exchange hp ⟨hh, hs⟩, fun col row hin => ?_⟩
  have hfront := exec_decode (s := exchanged s) ht hin .front
  have hback := exec_decode (s := exchanged s) ht hin .back
  simp only [exchanged_roleBuf_front, exchanged_roleBuf_back, exchanged_dec] at hfront hback
  exact ⟨s.dec s.back col row, s.dec s.front col row, exec_decode ht hin .back, hfront, exec_decode ht hin .front, hback⟩

end Sys2Proof.Swap
end

section
/-! SUPPORT. The later steps of START and DISPOSE, and STOP (43_lifecycle.md). -/

namespace Sys2Proof.Lifecycle

open Sys2Proof.Machine Sys2Proof.Writers

/-- A completion overwrites the phase that the agent had. -/
@[simp] theorem setPhase_complete (s : State) (k : Nat) (p : HPhase) (v : Word) :
    (s.setPhase k p).complete k v = s.complete k v := by
  simp only [State.complete, State.setPhase, State.modifyHost, List.modify_modify_eq]
  rfl

/-- The state of a block that `START` has just taken from Stopped to Running (R141). -/
def started (s : State) : State :=
  { s with running := true, parked := false, curH := 0#5, curI := 0#3, curC := 0#15, phase := .s1 }

@[simp] theorem started_setPhase_complete (s : State) (k : Nat) (p : HPhase) (v : Word) :
    (started (s.setPhase k p)).complete k v = (started s).complete k v :=
  setPhase_complete (started s) k p v

theorem startStep_of_stopped {s : State} (k : Nat) (hr : s.running = false) (hp : s.parked = true) :
    startStep k s = (started s).complete k 0#64 := by
  rw [startStep, hr, hp]
  rfl

theorem startStep_of_stopping {s : State} (k : Nat) (hr : s.running = false) (hp : s.parked = false) :
    startStep k s = s.setPhase k .startWait := by
  rw [startStep, hr, hp]
  rfl

section
variable {s : State} (k : Nat)

/-- The steps of `START_WAIT` (R143). -/
theorem startWaitStep_disposing (hd : s.disposing = true) :
    startWaitStep k s = .next (s.raiseFault k .useAfterDispose) := by
  simp only [startWaitStep, hd, if_true]

theorem startWaitStep_stopping (hd : s.disposing = false) (hs : s.isStopping = true) :
    startWaitStep k s = .next s := by
  simp [startWaitStep, hd, hs]

theorem startWaitStep_start (hd : s.disposing = false) (hs : s.isStopping = false) :
    startWaitStep k s = .next (startStep k (s.setPhase k .ready)) := by
  simp [startWaitStep, hd, hs]

theorem isStopping_of_running (hr : s.running = true) : s.isStopping = false := by
  simp [State.isStopping, hr]

theorem isStopping_of_parked (hp : s.parked = true) : s.isStopping = false := by
  simp [State.isStopping, hp]

end

/-- Settles O46: the three cases of step 1, which the end of `START_WAIT` takes again. -/
theorem startSteps : Obligations.StartSteps := by
  refine ⟨fun s ht => ?_, fun s k a ha hp => ?_⟩
  · rw [exec_start ht]
    exact ⟨fun hr hp => congrArg Host.Outcome.next (startStep_of_stopped _ hr hp),
      fun hr hp => congrArg Host.Outcome.next (startStep_of_stopping _ hr hp)⟩
  · have hstep : hostStep k s = startWaitStep k s := by simp only [hostStep_eq ha, hostAgentStep, hp]
    rw [hstep]
    refine ⟨startWaitStep_disposing k, startWaitStep_stopping k, fun hd hr => ?_, fun hd hr hpark => ?_⟩
    · have hrunning : (s.setPhase k .ready).running = true := hr
      rw [startWaitStep_start k hd (isStopping_of_running hr), startStep_of_running k hrunning, setPhase_complete]
    · have hrunning : (s.setPhase k .ready).running = false := hr
      have hparked : (s.setPhase k .ready).parked = true := hpark
      rw [startWaitStep_start k hd (isStopping_of_parked hpark), startStep_of_stopped k hrunning hparked,
        started_setPhase_complete]
      rfl

/-- Settles O48: with `RUNNING` 0 the write of `STOP` is no change. -/
theorem stopClearsRunning : Obligations.StopClearsRunning := by
  intro s ht
  have hstop : exec .stop s = .next ({ s with running := false }.complete s.issuer 0#64) :=
    State.unlessTornDown_pass ht
  refine ⟨hstop, fun hr => ?_⟩
  have hsame : { s with running := false } = s := by rw [← hr]
  rw [hstop, hsame]

/-- Settles O49: the three cases of the issue, and of each later step its hold and its effect. -/
theorem disposeSteps : Obligations.DisposeSteps := by
  refine ⟨fun s => ?_, fun s k a ha => ?_⟩
  · simp only [exec, execDispose]
    exact ⟨fun hd => by simp [hd], fun hd hg => by simp [hd, hg], fun hd hg => by simp [hd, hg]⟩
  · rw [hostStep_eq ha]
    refine ⟨fun hp hpark => ?_, fun hp hpark => ?_, fun hp => ?_, fun hp hd => ?_, fun hp hd => ?_⟩ <;>
      simp only [hostAgentStep, hp]
    · simp [dispWaitParkStep, hpark]
    · simp [dispWaitParkStep, hpark]
    · rfl
    · simp [dispWaitOtherStep, hd]
    · simp [dispWaitOtherStep, hd]

/-- Settles O52: the step of the park and the step of the release, one after the other (R146, R147). -/
theorem parkedDisposeCompletes : Obligations.ParkedDisposeCompletes := by
  intro s k a ha hp hpark
  have hlt : k < s.hosts.length := List.getElem?_eq_some_iff.mp ha |>.1
  obtain ⟨-, hparked, -⟩ := disposeSteps.2 s k a ha
  have hrelease : (s.setPhase k .dispRelease).hosts[k]? = some { a with hphase := .dispRelease } := by simp [ha]
  obtain ⟨-, -, hreleased, -⟩ := disposeSteps.2 (s.setPhase k .dispRelease) k _ hrelease
  have hlt' : k < (s.setPhase k .dispRelease).hosts.length := by simpa using hlt
  exact ⟨_, _, hparked hp hpark, hreleased rfl, rfl, rfl, State.respOf_complete _ hlt' _,
    State.phaseOf_complete _ hlt' _, rfl⟩

end Sys2Proof.Lifecycle

/-! The lifecycle check of every command but `DISPOSE` and `GETSTATUS` (R166(3)). -/

namespace Sys2Proof.Exceptions

open Sys2Proof.Machine

/-- Settles O50: each of the thirteen other commands begins with the lifecycle check. -/
theorem tornDownRaisesUseAfterDispose : Obligations.TornDownRaisesUseAfterDispose := by
  refine ⟨rfl, fun s i ht hdispose hgetstatus => ?_⟩
  cases i with
  | dispose => exact absurd rfl hdispose
  | getstatus => exact absurd rfl hgetstatus
  | _ => exact State.unlessTornDown_stop ht

end Sys2Proof.Exceptions
end

section
/-! SUPPORT. The configuration and query commands of 44_config_query.md, the status word, and what every reading command
leaves unchanged. -/

namespace Sys2Proof.ConfigQuery

open Sys2Proof.Machine

/-- Settles O53: each writes one register, and the answer of `GETBASE` takes the place of that of `SETBASE`. -/
theorem configurationCommands : Obligations.ConfigurationCommands := by
  intro s ht
  have hset : ∀ ns, exec (.setbase ns) s = .next ({ s with baseNs := ns }.complete s.issuer 0#64) :=
    fun _ => State.unlessTornDown_pass ht
  refine ⟨hset, State.unlessTornDown_pass ht, fun ns => ?_⟩
  have hget : exec .getbase ({ s with baseNs := ns }.complete s.issuer 0#64) =
      .next (({ s with baseNs := ns }.complete s.issuer 0#64).complete s.issuer (ns.setWidth 64)) :=
    State.unlessTornDown_pass ht
  simp only [execAll, hset, hget, Lifecycle.complete_complete]

/-- Settles O54: past the lifecycle check a query command is a completion. -/
theorem queryCommands : Obligations.QueryCommands :=
  fun _ ht => ⟨State.unlessTornDown_pass ht, State.unlessTornDown_pass ht, State.unlessTornDown_pass ht,
    State.unlessTornDown_pass ht⟩

/-! ### The status word -/

/-- A bit inside a placed field. Its upper bound is stated so that `simp` leaves the bits above to the next lemma. -/
theorem placeField_getLsbD_inside {n lsb k : Nat} (x : BitVec n) (hk : k < 64) (hlow : lsb ≤ k) (_ : k < lsb + n) :
    (placeField x lsb).getLsbD k = x.getLsbD (k - lsb) := by
  simp [placeField, hk, hlow]

theorem placeField_getLsbD_above {n lsb k : Nat} (x : BitVec n) (h : lsb + n ≤ k) :
    (placeField x lsb).getLsbD k = false := by
  simp [placeField, BitVec.getLsbD_of_ge x (k - lsb) (by omega)]

theorem placeField_getLsbD_below {n lsb k : Nat} (x : BitVec n) (h : k < lsb) :
    (placeField x lsb).getLsbD k = false := by
  simp [placeField, h]

/-- Settles O55: no two fields of the status word share a bit, so each is read back from its place. -/
theorem statusWordFields : Obligations.StatusWordFields := by
  intro s
  refine ⟨rfl, ?_, ?_, ?_, ?_, ?_, ?_, ?_, ?_, ?_, ?_, ?_, ?_, ?_, fun p => ?_⟩
  case refine_14 => simp [State.statusWord, State.fresh, placeField]
  case refine_9 | refine_10 | refine_11 | refine_12 | refine_13 =>
    refine BitVec.eq_of_getLsbD_eq fun k hk => ?_
    rw [BitVec.getLsbD_extractLsb', State.statusWord]
    simp (disch := omega) only [BitVec.getLsbD_or, placeField_getLsbD_above, placeField_getLsbD_below,
      placeField_getLsbD_inside]
    simp [hk]
  all_goals
    rw [State.statusWord]
    simp (disch := omega) only [BitVec.getLsbD_or, placeField_getLsbD_above, placeField_getLsbD_below,
      placeField_getLsbD_inside]
    simp

/-! ### Reading commands -/

/-- Settles O56: the lifecycle check, then the operand's, then the answer; and an answer is one agent's record. -/
theorem readsHaveNoSideEffect : Obligations.ReadsHaveNoSideEffect := by
  refine ⟨fun s i hread => ⟨fun hne ht => ?_, fun hpass => ?_⟩, fun s k v a ha => ⟨?_, fun j hj => ?_, rfl⟩⟩
  · have hdispose : i ≠ .dispose := by
      rintro rfl
      exact absurd hread (by decide)
    exact Exceptions.tornDownRaisesUseAfterDispose.2 s i ht hdispose hne
  · cases i with
    | decode sel col row =>
      have ht := hpass.resolve_left (by simp)
      simp only [State.operandBad, Bool.not_eq_true', Bool.not_eq_false']
      exact ⟨fun hout => PixelEncoder.exec_decode_outside ht hout sel,
        fun hin => ⟨_, PixelEncoder.exec_decode ht hin sel⟩⟩
    | readbyte sel off =>
      have ht := hpass.resolve_left (by simp)
      simp only [State.operandBad, decide_eq_true_eq, decide_eq_false_iff_not, Nat.not_le]
      exact ⟨fun hout => PixelEncoder.exec_readbyte_outside ht sel hout,
        fun hin => ⟨_, PixelEncoder.exec_readbyte ht sel hin⟩⟩
    | getstatus => exact ⟨fun h => absurd h (by simp [State.operandBad]), fun _ => ⟨_, rfl⟩⟩
    | getbase | getframetime | getwidth | getheight =>
      have ht := hpass.resolve_left (by simp)
      exact ⟨fun h => absurd h (by simp [State.operandBad]), fun _ => ⟨_, State.unlessTornDown_pass ht⟩⟩
    | _ => exact absurd hread (by simp [readsOnly])
  · rw [State.complete_hosts_self, ha]
    rfl
  · exact State.complete_hosts_ne s hj.symm v

end Sys2Proof.ConfigQuery
end

section
/-! SUPPORT. The step of a host agent that issues a word: the decoded command or its decode fault. -/

namespace Sys2Proof.Issue

open Sys2Proof.Machine Sys2Proof.Writers

variable {s : State} {k : Nat} {w : Word} {a : HostAgent}

theorem issueWord_of_decode {i : Instr} (h : decode w = .ok i) (k : Nat) (s : State) :
    issueWord k w s = exec i (s.issue k) := by
  simp only [issueWord, h]

theorem step_of_nextAgent_host (h : s.nextAgent = .host k) : step s = hostStep k s.endTurn := by
  simp only [step, turnStep, h, agentStep]

/-- The turn of a `READY` agent issues the first word of its program (R10). -/
theorem hostStep_of_ready {ws : List Word} (ha : s.hosts[k]? = some a) (hp : a.hphase = .ready) (hc : a.cmds = w :: ws) :
    hostStep k s = issueWord k w s := by
  simp only [hostStep_eq ha, hostAgentStep, hp, hc]

/-- Settles O8: the turn is that agent's, and what it issues is its word. -/
theorem stepRunsDecodedCommand : Obligations.StepRunsDecodedCommand := by
  intro s k a w ws hturn ha hp hc
  have hstep : step s = issueWord k w s.endTurn :=
    (step_of_nextAgent_host hturn).trans (hostStep_of_ready (s := s.endTurn) ha hp hc)
  rw [hstep]
  exact ⟨rfl, fun _ hi => issueWord_of_decode hi _ _, fun he => Encoding.issueWord_of_decode_error he _ _,
    fun he => Encoding.issueWord_of_decode_error he _ _⟩

/-- A word is its own number's word (log 8). -/
theorem wordOfBits_toNat (w : Word) : wordOfBits 64 w.toNat = w := by
  rw [wordOfBits, Nat.mod_eq_of_lt w.isLt, BitVec.ofNat_toNat, BitVec.setWidth_eq]

/-- The command input gives host agent 0 the word and a `READY` phase (log 8). -/
theorem withFetchWord_host (s : State) (w : Word) : ∃ a ws,
    (s.withFetchWord 64 w.toNat).hosts[0]? = some a ∧ a.hphase = .ready ∧ a.cmds = w :: ws := by
  rw [State.withFetchWord, wordOfBits_toNat, State.withCommand]
  cases s.hosts with
  | nil => exact ⟨_, _, rfl, rfl, rfl⟩
  | cons a rest => exact ⟨_, _, rfl, rfl, rfl⟩

/-- Settles O9: the placed word is the next step's, and decoding it gives back the command. -/
theorem withFetchWordRunsCommand : Obligations.WithFetchWordRunsCommand := by
  intro s i hwf
  obtain ⟨a, ws, ha, hp, hc⟩ := withFetchWord_host s (encode i)
  obtain ⟨-, hdecoded, -⟩ := stepRunsDecodedCommand _ 0 a _ ws rfl ha hp hc
  exact hdecoded i (Encoding.decodeOfEncode i hwf)

end Sys2Proof.Issue
end
